-- ==== Sys2Proof/Word.lean ====
section
/-! DEFINITION. The words of the block: the widths of `00_scope.md` rules R7 and section 7.1. -/

namespace Sys2Proof

/-- u8: a byte, and the width of `T.status` (R7). -/
abbrev Byte := BitVec 8

/-- u16: a half-word (R40). -/
abbrev Half := BitVec 16

/-- u32: a word, an address, a register (R7, R40). -/
abbrev Word := BitVec 32

/-- u64: the Clock and the counters (R7). -/
abbrev DWord := BitVec 64

/-- `Num`: the bits of an IEEE 754 binary64 number, the reference instance of rule R127 (log 5). -/
abbrev Number := BitVec 64

/-- The 68-bit command word `CMD[67:0]` of rule R60. -/
abbrev Command := BitVec 68

/-- A vector in range, 0 to `NVEC - 1 = 31` (R7, R66). -/
abbrev VectorIx := Fin 32

end Sys2Proof
end

