-- ==== Sys2Proof/Config.lean ====
section
/-! DEFINITION. The parameters of rule R7 that are fixed for a run (R19), and the free values. -/

namespace Sys2Proof

/-- The two base addresses an integrator may move (`00_scope.md` rule R7, kind *argument*). -/
structure Config where
  /-- `TIMER_BASE` -/
  timerBase : Word
  /-- `PIC_BASE` -/
  picBase : Word
deriving DecidableEq, Repr

/-- The default bases of rule R7. -/
def Config.standard : Config where
  timerBase := 0x10000000#32
  picBase := 0x10000F00#32

/-- `WINDOW_SIZE` of rule R7. -/
def Config.windowSize : Nat := 0x100

/-- `NVEC` of rule R7. -/
def Config.nvec : Nat := 32

/-- The constraints rule R7 puts on the two bases: each a multiple of `WINDOW_SIZE`, the windows
disjoint, and each `BASE + 0x100 <= 2^32`. -/
abbrev Config.WF (c : Config) : Prop :=
  c.timerBase.toNat % Config.windowSize = 0 ∧ c.picBase.toNat % Config.windowSize = 0 ∧
  (c.timerBase.toNat + Config.windowSize ≤ c.picBase.toNat ∨
    c.picBase.toNat + Config.windowSize ≤ c.timerBase.toNat) ∧
  c.timerBase.toNat + Config.windowSize ≤ 2 ^ 32 ∧ c.picBase.toNat + Config.windowSize ≤ 2 ^ 32

/-- FREE VALUE (log 7): the sign (bit 51) and the payload (bits 50 to 0) of the quiet NaN that
operation number `op` of rule R127 gives on operands `a` and `b` when it has no numeric result. The
spec states no bits for a NaN. -/
opaque Config.nanPayload (op : Nat) (a b : Number) : BitVec 52

/-- `STATS_RTOL` of rules R7 and R128, a tolerance and so not negative: OPEN, the spec gives it no
number (log 5). No operation of the block reads it. -/
opaque Config.statsRtol : NNRat

end Sys2Proof
end

