-- ==== Sys2Proof/Machine/AddressMap.lean ====
section
/-! DEFINITION. The address map: window decode (R41) and the second-level offset switch (R28, R43). -/

namespace Sys2Proof.Machine

/-- The answer of `Decode(addr)` (R41): a window with an offset into it, or no window (R42). -/
inductive Region where
  | timer (off : Byte)
  | pic (off : Byte)
  | unmapped
deriving DecidableEq, Repr

/-- The four registers of the Timer window (R28). -/
inductive TimerReg where
  | ctrl | period | count | status
deriving DecidableEq, Repr

/-- The four registers of the PIC window (R28). -/
inductive PicReg where
  | mask | pending | eoi | priority
deriving DecidableEq, Repr

/-- The eight memory-mapped registers (R28). -/
inductive Reg where
  | timer (r : TimerReg)
  | pic (r : PicReg)
deriving DecidableEq, Repr

/-- "Pure range containment: `base <= addr < base + size`", on integers without wrap (R41). -/
def inWindow (base addr : Word) : Bool :=
  decide (base.toNat ≤ addr.toNat) && decide (addr.toNat < base.toNat + Config.windowSize)

/-- `off = addr - BASE`, 0x00 to 0xFF inside the window (R41). -/
def windowOffset (base addr : Word) : Byte :=
  BitVec.ofNat 8 (addr.toNat - base.toNat)

/-- `Decode(addr)` of rule R41, the Timer window tested first. -/
def decodeAddr (cfg : Config) (addr : Word) : Region :=
  if inWindow cfg.timerBase addr then .timer (windowOffset cfg.timerBase addr)
  else if inWindow cfg.picBase addr then .pic (windowOffset cfg.picBase addr)
  else .unmapped

/-- The word offset of a Timer register (R28). -/
def timerOffset : TimerReg → Byte
  | .ctrl => 0x00#8
  | .period => 0x04#8
  | .count => 0x08#8
  | .status => 0x0C#8

/-- The word offset of a PIC register (R28). -/
def picOffset : PicReg → Byte
  | .mask => 0x00#8
  | .pending => 0x04#8
  | .eoi => 0x08#8
  | .priority => 0x0C#8

/-- The offset switch of the Timer window; `none` is a hole (R43, R46). -/
def timerReg (off : Byte) : Option TimerReg :=
  if off = 0x00#8 then some .ctrl
  else if off = 0x04#8 then some .period
  else if off = 0x08#8 then some .count
  else if off = 0x0C#8 then some .status
  else none

/-- The offset switch of the PIC window; `none` is a hole (R43, R46). PRIORITY is named by the map
and behaves as a hole (R36, R115). -/
def picReg (off : Byte) : Option PicReg :=
  if off = 0x00#8 then some .mask
  else if off = 0x04#8 then some .pending
  else if off = 0x08#8 then some .eoi
  else if off = 0x0C#8 then some .priority
  else none

/-- The register a 32-bit access at exactly `addr` reaches, if any (R41, R43, R46). -/
def regAt (cfg : Config) (addr : Word) : Option Reg :=
  match decodeAddr cfg addr with
  | .timer off => (timerReg off).map Reg.timer
  | .pic off => (picReg off).map Reg.pic
  | .unmapped => none

/-- The address `BASE + off` inside a window. -/
def windowAddr (base : Word) (off : Byte) : Word := base + off.setWidth 32

/-- The address of a register (R28). -/
def regAddr (cfg : Config) : Reg → Word
  | .timer r => windowAddr cfg.timerBase (timerOffset r)
  | .pic r => windowAddr cfg.picBase (picOffset r)

end Sys2Proof.Machine
end

