-- ==== Sys2Proof/Syntax.lean ====
section
/-! DEFINITION. The operations of the block as data: one constructor per row of
`spec/opcode_table.json` (R61, R73). An operand bit that rule R62 calls ignored is no part of a term. -/

namespace Sys2Proof

/-- One decoded command. `vec` is the 32-bit pattern that rule R66 reads as a signed vector number;
`off` is the low byte of an address inside a window (R41), `addr` a whole address. -/
inductive Instr where
  | tick
  | irqPending
  | ackIrq (vec : Word)
  | read8 (addr : Word)
  | read16 (addr : Word)
  | read32TimerCtrl
  | read32TimerPeriod
  | read32TimerCount
  | read32TimerStatus
  | read32PicMask
  | read32PicPending
  | read32PicEoi
  | read32PicPriority
  | read32TimerHole (off : Byte)
  | read32PicHole (off : Byte)
  | read32Unmapped (addr : Word)
  | write8 (addr : Word) (data : Byte)
  | write16 (addr : Word) (data : Half)
  | write32TimerCtrl (word : Word)
  | write32TimerPeriod (word : Word)
  | write32TimerCount (word : Word)
  | write32TimerStatus (word : Word)
  | write32PicMask (word : Word)
  | write32PicPending (word : Word)
  | write32PicEoi (word : Word)
  | write32PicPriority (word : Word)
  | write32TimerHole (off : Byte) (word : Word)
  | write32PicHole (off : Byte) (word : Word)
  | write32Unmapped (addr : Word) (word : Word)
  | getIrqStats (vec : Word)
  | getGlobalCycles
  | initDefault
  | signal (vec : Word)
  | reservedD
  | reservedE
  | reservedF
deriving DecidableEq, Repr

/-- The row's mnemonic in `spec/opcode_table.json`, letter for letter. -/
def Instr.mnemonic : Instr → String
  | .tick => "TICK"
  | .irqPending => "IRQ_PENDING"
  | .ackIrq _ => "ACK_IRQ"
  | .read8 _ => "READ8"
  | .read16 _ => "READ16"
  | .read32TimerCtrl => "READ32.TIMER_CTRL"
  | .read32TimerPeriod => "READ32.TIMER_PERIOD"
  | .read32TimerCount => "READ32.TIMER_COUNT"
  | .read32TimerStatus => "READ32.TIMER_STATUS"
  | .read32PicMask => "READ32.PIC_MASK"
  | .read32PicPending => "READ32.PIC_PENDING"
  | .read32PicEoi => "READ32.PIC_EOI"
  | .read32PicPriority => "READ32.PIC_PRIORITY"
  | .read32TimerHole _ => "READ32.TIMER_HOLE"
  | .read32PicHole _ => "READ32.PIC_HOLE"
  | .read32Unmapped _ => "READ32.UNMAPPED"
  | .write8 _ _ => "WRITE8"
  | .write16 _ _ => "WRITE16"
  | .write32TimerCtrl _ => "WRITE32.TIMER_CTRL"
  | .write32TimerPeriod _ => "WRITE32.TIMER_PERIOD"
  | .write32TimerCount _ => "WRITE32.TIMER_COUNT"
  | .write32TimerStatus _ => "WRITE32.TIMER_STATUS"
  | .write32PicMask _ => "WRITE32.PIC_MASK"
  | .write32PicPending _ => "WRITE32.PIC_PENDING"
  | .write32PicEoi _ => "WRITE32.PIC_EOI"
  | .write32PicPriority _ => "WRITE32.PIC_PRIORITY"
  | .write32TimerHole _ _ => "WRITE32.TIMER_HOLE"
  | .write32PicHole _ _ => "WRITE32.PIC_HOLE"
  | .write32Unmapped _ _ => "WRITE32.UNMAPPED"
  | .getIrqStats _ => "GET_IRQ_STATS"
  | .getGlobalCycles => "GET_GLOBAL_CYCLES"
  | .initDefault => "INIT_DEFAULT"
  | .signal _ => "SIGNAL"
  | .reservedD => "RESERVED_D"
  | .reservedE => "RESERVED_E"
  | .reservedF => "RESERVED_F"

end Sys2Proof
end

