-- ==== Sys2Proof/WellFormed.lean ====
section
/-! DEFINITION. Which terms the decoder can produce: the operand of a hole row is no register's
offset, and the address of an unmapped row lies in neither window (R42, R43, R73). -/

namespace Sys2Proof

/-- Whether an instruction is one that some command word stands for under the bases of `cfg`. -/
def Instr.wf (cfg : Config) : Instr → Bool
  | .read32TimerHole off => (Machine.timerReg off).isNone
  | .write32TimerHole off _ => (Machine.timerReg off).isNone
  | .read32PicHole off => (Machine.picReg off).isNone
  | .write32PicHole off _ => (Machine.picReg off).isNone
  | .read32Unmapped addr => decide (Machine.decodeAddr cfg addr = .unmapped)
  | .write32Unmapped addr _ => decide (Machine.decodeAddr cfg addr = .unmapped)
  | .tick | .irqPending | .ackIrq _ | .read8 _ | .read16 _ => true
  | .read32TimerCtrl | .read32TimerPeriod | .read32TimerCount | .read32TimerStatus => true
  | .read32PicMask | .read32PicPending | .read32PicEoi | .read32PicPriority => true
  | .write8 _ _ | .write16 _ _ => true
  | .write32TimerCtrl _ | .write32TimerPeriod _ | .write32TimerCount _ | .write32TimerStatus _ => true
  | .write32PicMask _ | .write32PicPending _ | .write32PicEoi _ | .write32PicPriority _ => true
  | .getIrqStats _ | .getGlobalCycles | .initDefault | .signal _ => true
  | .reservedD | .reservedE | .reservedF => true

end Sys2Proof
end

