-- ==== Sys2Proof/Decode.lean ====
section
/-! DEFINITION. From the 68-bit command word to the instruction (R60, R61, R73), and back. -/

namespace Sys2Proof

/-- `op = CMD[67:64]` (R60). -/
def Command.op (c : Command) : BitVec 4 := c.extractLsb' 64 4

/-- `a = CMD[63:32]`, the address operand (R60). -/
def Command.a (c : Command) : Word := c.extractLsb' 32 32

/-- `d = CMD[31:0]`, the data or vector operand (R60). -/
def Command.d (c : Command) : Word := c.extractLsb' 0 32

/-- The command word `op ++ a ++ d` (R60). -/
def command (op : BitVec 4) (a d : Word) : Command := op ++ a ++ d

/-- The READ32 row that address `a` selects (R73, R80). -/
def decodeRead32 (cfg : Config) (a : Word) : Instr :=
  match Machine.decodeAddr cfg a with
  | .timer off =>
    match Machine.timerReg off with
    | some .ctrl => .read32TimerCtrl
    | some .period => .read32TimerPeriod
    | some .count => .read32TimerCount
    | some .status => .read32TimerStatus
    | none => .read32TimerHole off
  | .pic off =>
    match Machine.picReg off with
    | some .mask => .read32PicMask
    | some .pending => .read32PicPending
    | some .eoi => .read32PicEoi
    | some .priority => .read32PicPriority
    | none => .read32PicHole off
  | .unmapped => .read32Unmapped a

/-- The WRITE32 row that address `a` selects, with the word to write (R73, R81). -/
def decodeWrite32 (cfg : Config) (a w : Word) : Instr :=
  match Machine.decodeAddr cfg a with
  | .timer off =>
    match Machine.timerReg off with
    | some .ctrl => .write32TimerCtrl w
    | some .period => .write32TimerPeriod w
    | some .count => .write32TimerCount w
    | some .status => .write32TimerStatus w
    | none => .write32TimerHole off w
  | .pic off =>
    match Machine.picReg off with
    | some .mask => .write32PicMask w
    | some .pending => .write32PicPending w
    | some .eoi => .write32PicEoi w
    | some .priority => .write32PicPriority w
    | none => .write32PicHole off w
  | .unmapped => .write32Unmapped a w

/-- The operation of an operation code with its operands (R61). Every code has a meaning: the three
the table reserves are rows of their own (R69). -/
def decodeOp (cfg : Config) (op : BitVec 4) (a d : Word) : Instr :=
  if op = 0x0#4 then .tick
  else if op = 0x1#4 then .irqPending
  else if op = 0x2#4 then .ackIrq d
  else if op = 0x3#4 then .read8 a
  else if op = 0x4#4 then .read16 a
  else if op = 0x5#4 then decodeRead32 cfg a
  else if op = 0x6#4 then .write8 a (d.extractLsb' 0 8)
  else if op = 0x7#4 then .write16 a (d.extractLsb' 0 16)
  else if op = 0x8#4 then decodeWrite32 cfg a d
  else if op = 0x9#4 then .getIrqStats d
  else if op = 0xA#4 then .getGlobalCycles
  else if op = 0xB#4 then .initDefault
  else if op = 0xC#4 then .signal d
  else if op = 0xD#4 then .reservedD
  else if op = 0xE#4 then .reservedE
  else .reservedF

/-- The decoder. It is total and refuses nothing: "every one of the 2^68 command words matches at
least one row" (R73). -/
def decode (cfg : Config) (c : Command) : Instr :=
  decodeOp cfg (Command.op c) (Command.a c) (Command.d c)

/-- The one way a number fails to be a command: it does not fit the 68 bits of rule R60 (log 17). -/
inductive DecodeError where
  | widerThanACommand (w : Nat)
deriving DecidableEq, Repr

/-- The decoder on a number: the command word it is, or a rejection by name. -/
def decodeNat (cfg : Config) (w : Nat) : Except DecodeError Instr :=
  if w < 2 ^ 68 then .ok (decode cfg (BitVec.ofNat 68 w)) else .error (.widerThanACommand w)

/-- The instruction the decoder reads from a row's bits, with the default bases, for which
`opcode_table.json` is written (R73). Bits above `nbits` are 0, so `w` alone decides. -/
def decodeTableWord (_nbits w : Nat) : Option Instr :=
  match decodeNat Config.standard w with
  | .ok i => some i
  | .error _ => none

/-- The bits of a command word that rule R61's table lists as used by an operation code, the code's own
four among them (R62). -/
def usedMask (op : BitVec 4) : Command :=
  if op = 0x2#4 ∨ op = 0x9#4 ∨ op = 0xC#4 then 0xF00000000FFFFFFFF#68
  else if op = 0x3#4 ∨ op = 0x4#4 ∨ op = 0x5#4 then 0xFFFFFFFFF00000000#68
  else if op = 0x6#4 then 0xFFFFFFFFF000000FF#68
  else if op = 0x7#4 then 0xFFFFFFFFF0000FFFF#68
  else if op = 0x8#4 then 0xFFFFFFFFFFFFFFFFF#68
  else 0xF0000000000000000#68

/-- The canonical encoding of a command: its ignored bits 0 (R62). -/
def canonicalCommand (c : Command) : Command := c &&& usedMask (Command.op c)

/-- The operation code of an instruction (R61). -/
def Instr.opcode : Instr → BitVec 4
  | .tick => 0x0#4
  | .irqPending => 0x1#4
  | .ackIrq _ => 0x2#4
  | .read8 _ => 0x3#4
  | .read16 _ => 0x4#4
  | .read32TimerCtrl | .read32TimerPeriod | .read32TimerCount | .read32TimerStatus => 0x5#4
  | .read32PicMask | .read32PicPending | .read32PicEoi | .read32PicPriority => 0x5#4
  | .read32TimerHole _ | .read32PicHole _ | .read32Unmapped _ => 0x5#4
  | .write8 _ _ => 0x6#4
  | .write16 _ _ => 0x7#4
  | .write32TimerCtrl _ | .write32TimerPeriod _ | .write32TimerCount _ | .write32TimerStatus _ => 0x8#4
  | .write32PicMask _ | .write32PicPending _ | .write32PicEoi _ | .write32PicPriority _ => 0x8#4
  | .write32TimerHole _ _ | .write32PicHole _ _ | .write32Unmapped _ _ => 0x8#4
  | .getIrqStats _ => 0x9#4
  | .getGlobalCycles => 0xA#4
  | .initDefault => 0xB#4
  | .signal _ => 0xC#4
  | .reservedD => 0xD#4
  | .reservedE => 0xE#4
  | .reservedF => 0xF#4

/-- The encoder: the canonical command word of an instruction, ignored bits 0 (R60 to R62). -/
def encode (cfg : Config) (i : Instr) : Command :=
  let timer (r : Machine.TimerReg) := Machine.regAddr cfg (.timer r)
  let pic (r : Machine.PicReg) := Machine.regAddr cfg (.pic r)
  match i with
  | .tick => command 0x0#4 0 0
  | .irqPending => command 0x1#4 0 0
  | .ackIrq vec => command 0x2#4 0 vec
  | .read8 addr => command 0x3#4 addr 0
  | .read16 addr => command 0x4#4 addr 0
  | .read32TimerCtrl => command 0x5#4 (timer .ctrl) 0
  | .read32TimerPeriod => command 0x5#4 (timer .period) 0
  | .read32TimerCount => command 0x5#4 (timer .count) 0
  | .read32TimerStatus => command 0x5#4 (timer .status) 0
  | .read32PicMask => command 0x5#4 (pic .mask) 0
  | .read32PicPending => command 0x5#4 (pic .pending) 0
  | .read32PicEoi => command 0x5#4 (pic .eoi) 0
  | .read32PicPriority => command 0x5#4 (pic .priority) 0
  | .read32TimerHole off => command 0x5#4 (Machine.windowAddr cfg.timerBase off) 0
  | .read32PicHole off => command 0x5#4 (Machine.windowAddr cfg.picBase off) 0
  | .read32Unmapped addr => command 0x5#4 addr 0
  | .write8 addr data => command 0x6#4 addr (data.setWidth 32)
  | .write16 addr data => command 0x7#4 addr (data.setWidth 32)
  | .write32TimerCtrl w => command 0x8#4 (timer .ctrl) w
  | .write32TimerPeriod w => command 0x8#4 (timer .period) w
  | .write32TimerCount w => command 0x8#4 (timer .count) w
  | .write32TimerStatus w => command 0x8#4 (timer .status) w
  | .write32PicMask w => command 0x8#4 (pic .mask) w
  | .write32PicPending w => command 0x8#4 (pic .pending) w
  | .write32PicEoi w => command 0x8#4 (pic .eoi) w
  | .write32PicPriority w => command 0x8#4 (pic .priority) w
  | .write32TimerHole off w => command 0x8#4 (Machine.windowAddr cfg.timerBase off) w
  | .write32PicHole off w => command 0x8#4 (Machine.windowAddr cfg.picBase off) w
  | .write32Unmapped addr w => command 0x8#4 addr w
  | .getIrqStats vec => command 0x9#4 0 vec
  | .getGlobalCycles => command 0xA#4 0 0
  | .initDefault => command 0xB#4 0 0
  | .signal vec => command 0xC#4 0 vec
  | .reservedD => command 0xD#4 0 0
  | .reservedE => command 0xE#4 0 0
  | .reservedF => command 0xF#4 0 0

end Sys2Proof
end

