-- ==== Sys2Proof/Machine/State.lean ====
section
/-! DEFINITION. The state of the block (R10), the host's input and the response port, the reset state
(R39), and the two ways a step could stop, of which the block uses none (R145). -/

namespace Sys2Proof.Machine

/-- The Timer's state (R13 to R18). -/
structure Timer where
  /-- `T.enabled` (R13) -/
  enabled : Bool
  /-- `T.irq_enable` (R14) -/
  irqEnable : Bool
  /-- `T.period` (R15) -/
  period : Word
  /-- `T.count` (R16) -/
  count : Word
  /-- `T.status`, bit 0 = fired (R17) -/
  status : Byte
  /-- `T.events_generated` (R18) -/
  eventsGenerated : DWord
deriving DecidableEq, Repr

/-- The PIC's state (R20, R21, R23). -/
structure Pic where
  /-- `P.mask_bits`, 1 = vector disabled (R20) -/
  maskBits : Word
  /-- `P.pending_bits`, 1 = request outstanding (R21) -/
  pendingBits : Word
  /-- `P.lec[v]`, the cycle at which vector `v` was last signalled, 0 = none recorded (R23, R24) -/
  lec : Vector DWord 32
deriving DecidableEq, Repr

/-- The Collector's arrays (R25 to R27). -/
structure Metrics where
  /-- `M.n[v]`, the samples folded for vector `v` (R25) -/
  n : Vector DWord 32
  /-- `M.mean[v]` (R26) -/
  mean : Vector Number 32
  /-- `M.m2[v]`, the running sum of squared deviations (R27) -/
  m2 : Vector Number 32
deriving DecidableEq, Repr

/-- What the host presents: a command word (R60), or the hardware reset input (R170, log 1). -/
inductive Input where
  | command (c : Command)
  | hardwareReset
deriving DecidableEq, Repr

/-- The response of an operation, field by field (R63). -/
inductive Response where
  /-- the response "none" -/
  | nothing
  | rdata8 (rdata : Byte)
  | rdata16 (rdata : Half)
  | rdata32 (rdata : Word)
  | irq (irqValid : Bool) (irqVector : BitVec 5)
  | accepted (accepted : Bool)
  | stats (count : DWord) (mean variance : Number)
  | cycles (cyclesOut : DWord)
deriving DecidableEq, Repr

/-- The block with its boundary. `cycles`, `timer`, `pic` and `metrics` are the complete state of rule
R10; the other three fields are the model's own. -/
structure State where
  /-- the Clock (R11) -/
  cycles : DWord
  timer : Timer
  pic : Pic
  metrics : Metrics
  /-- The parameters of R7 and R19, which no step changes (DESIGN CHOICE, safe: log 4). -/
  config : Config
  /-- What the host has presented and the block has not yet performed, oldest first (DESIGN CHOICE,
  safe: log 1). -/
  inputs : List Input
  /-- The response of the last operation performed (DESIGN CHOICE, safe: log 3). -/
  response : Response
deriving DecidableEq, Repr

/-- No constructor: "the block raises no synchronous exception of any kind" (R145, log 9). -/
inductive Fault where
deriving DecidableEq, Repr

/-- Why a step would have no meaning. -/
inductive Refusal where
  /-- Raised by `exec` for an instruction that has no meaning yet: safe. No arm raises it. -/
  | notModelled (mnemonic : String)
deriving DecidableEq, Repr

/-- The Timer after reset (R39). -/
def Timer.reset : Timer where
  enabled := false
  irqEnable := false
  period := 0
  count := 0
  status := 0
  eventsGenerated := 0

/-- The PIC after reset (R39). -/
def Pic.reset : Pic where
  maskBits := 0
  pendingBits := 0
  lec := Vector.replicate 32 0

/-- The Collector after reset (R39): counts 0, `Num` entries positive zero. -/
def Metrics.reset : Metrics where
  n := Vector.replicate 32 0
  mean := Vector.replicate 32 0
  m2 := Vector.replicate 32 0

/-- The machine right after reset (R39, R172), nothing presented yet. -/
def State.reset : State where
  cycles := 0
  timer := Timer.reset
  pic := Pic.reset
  metrics := Metrics.reset
  config := Config.standard
  inputs := []
  response := .nothing

end Sys2Proof.Machine
end

