-- ==== Sys2Proof/Machine/Flags.lean ====
section
/-! DEFINITION. The two kinds of flag the block has (R37): the timer's fired flag and the 32 pending
flags. There are no condition codes. -/

namespace Sys2Proof.Machine

/-- The fired flag `T.status[0]` (R37). -/
def fired (t : Timer) : Bool := t.status.getLsbD 0

/-- `T.status <- T.status | 0x01`: bit 0 set, bits 7:1 kept (R92). -/
def setFired (status : Byte) : Byte := status ||| 0x01#8

/-- The pending flag of a vector (R21). -/
def isPending (p : Pic) (v : VectorIx) : Bool := p.pendingBits.getLsbD v

/-- Whether a vector is masked (R20). -/
def isMasked (p : Pic) (v : VectorIx) : Bool := p.maskBits.getLsbD v

/-- The word whose only 1 is bit `v`. -/
def vectorBit (v : VectorIx) : Word := 1#32 <<< v.val

/-- `P.pending_bits[v] <- 1` (R105). -/
def setPending (bits : Word) (v : VectorIx) : Word := bits ||| vectorBit v

/-- `P.pending_bits[v] <- 0` (R109). -/
def clearPending (bits : Word) (v : VectorIx) : Word := bits &&& ~~~vectorBit v

/-- Write-1-to-clear: `P.pending_bits & ~w` (R113). -/
def writeOneToClear (bits w : Word) : Word := bits &&& ~~~w

/-- The index of the lowest set bit, `none` for 0: `ctz32` of rule R107. -/
def lowestSet (e : Word) : Option VectorIx :=
  (List.finRange 32).find? (fun i => e.getLsbD i.val)

end Sys2Proof.Machine
end

