-- ==== Sys2Proof/Machine/Operands.lean ====
section
/-! DEFINITION. Operand assembly: vector operands (R66), the EOI vector (R35, R114), and the lanes of
sub-word accesses (R45, R47, R67). -/

namespace Sys2Proof.Machine

/-- `vec = signed(d)`, a 32-bit two's complement integer (R66). -/
def signedVector (d : Word) : Int := d.toInt

/-- The range test `0 <= vec < NVEC` (R66): the vector in range, or `none`. -/
def vectorInRange (vec : Int) : Option VectorIx :=
  if h : 0 ≤ vec ∧ vec < 32 then some ⟨vec.toNat, by omega⟩ else none

/-- The vector of an EOI write: `w[7:0]`, unsigned (R66, R114). -/
def eoiVector (w : Word) : Int := ((w.extractLsb' 0 8).toNat : Int)

/-- `A = addr & 0xFFFF_FFFC`, the aligned containing word (R47). -/
def containingWord (addr : Word) : Word := addr &&& 0xFFFFFFFC#32

/-- `sh(addr) = 8 * addr[1:0]` (R45). -/
def laneShift (addr : Word) : Nat := 8 * (addr.extractLsb' 0 2).toNat

/-- `lane8(addr)` (R67). -/
def lane8 (addr : Word) : Word := 0x000000FF#32 <<< laneShift addr

/-- `lane16(addr)`, cut off at bit 31 (R47, R67). -/
def lane16 (addr : Word) : Word := 0x0000FFFF#32 <<< laneShift addr

/-- `extract8(w, addr)` (R67). -/
def extract8 (w addr : Word) : Byte := (w >>> laneShift addr).setWidth 8

/-- `extract16(w, addr)` (R67). -/
def extract16 (w addr : Word) : Half := (w >>> laneShift addr).setWidth 16

/-- `merge8(w, addr, b)` (R67). -/
def merge8 (w addr : Word) (b : Byte) : Word :=
  (w &&& ~~~lane8 addr) ||| (b.setWidth 32 <<< laneShift addr)

/-- `merge16(w, addr, h)` (R67). -/
def merge16 (w addr : Word) (h : Half) : Word :=
  (w &&& ~~~lane16 addr) ||| (h.setWidth 32 <<< laneShift addr)

end Sys2Proof.Machine
end

