-- ==== Sys2Proof/Machine/Binary64.lean ====
section
/-! DEFINITION. `Num` and its operations (R127): IEEE 754 binary64, each operation rounded once to
nearest, ties to even. Layout and meaning of the operations: PRESUMED, general knowledge (spec 93 K1,
log 6). A finite number is a signed whole number of units of `2^-1074`, so sums are exact integers. -/

namespace Sys2Proof.Machine.Binary64

/-- The sign bit. -/
def neg (x : Number) : Bool := x.getLsbD 63

/-- The eleven exponent bits, biased. -/
def expField (x : Number) : Nat := (x.extractLsb' 52 11).toNat

/-- The 52 fraction bits. -/
def fracField (x : Number) : Nat := (x.extractLsb' 0 52).toNat

/-- Neither an infinity nor a NaN. -/
def isFinite (x : Number) : Bool := expField x != 2047

/-- Exponent all ones, fraction not 0. -/
def isNaN (x : Number) : Bool := expField x == 2047 && fracField x != 0

/-- Exponent all ones, fraction 0. -/
def isInf (x : Number) : Bool := expField x == 2047 && fracField x == 0

/-- The magnitude of a finite number in units of `2^-1074`: with an exponent field of 0 the leading
bit is 0 and the scale is that of field 1. -/
def mag (x : Number) : Nat :=
  (if expField x = 0 then fracField x else 2 ^ 52 + fracField x) * 2 ^ (expField x - 1)

/-- The signed value of a finite number in units of `2^-1074`. -/
def units (x : Number) : Int := if neg x then -(mag x : Int) else mag x

/-- The exact value of a finite number. -/
def toRat (x : Number) : ℚ := units x / 2 ^ 1074

/-- The exponent of the last place kept when `q` units are rounded to 53 significant bits. -/
def scale (q : Nat) : Nat := Nat.log2 q - 52

/-- The bits, sign apart, of `num / den` units rounded to nearest with ties to even (`den > 0`).
The significand and the scale are added so that a carry out of the significand moves to the next
exponent; from the overflow threshold on the result is an infinity. -/
def roundMag (num den : Nat) : Nat :=
  let e := scale (num / den)
  let d := den * 2 ^ e
  let m := num / d
  let r := num % d
  let up := if 2 * r > d ∨ (2 * r = d ∧ m % 2 = 1) then 1 else 0
  min (e * 2 ^ 52 + (m + up)) (2047 * 2 ^ 52)

/-- A sign put before the other 63 bits. -/
def pack (sign : Bool) (m : Nat) : Number := BitVec.ofNat 64 (if sign then 2 ^ 63 + m else m)

/-- `0.0`, positive zero (R127). -/
def zero : Number := 0#64

/-- An infinity. -/
def inf (sign : Bool) : Number := pack sign (2047 * 2 ^ 52)

/-- A quiet NaN whose sign and payload are free (log 7): the spec states no bits for it. -/
def freeNaN (op : Nat) (a b : Number) : Number :=
  let p := Config.nanPayload op a b
  (p.extractLsb' 51 1 ++ (0xFFF#12 ++ p.extractLsb' 0 51) : BitVec (1 + (12 + 51)))

/-- The sign flipped. -/
def negate (x : Number) : Number := x ^^^ 0x8000000000000000#64

/-- `fadd` of rule R127. An exact sum of 0 is positive zero unless both operands are negative. -/
def add (a b : Number) : Number :=
  if isNaN a || isNaN b then freeNaN 0 a b
  else if isInf a then (if isInf b && neg a != neg b then freeNaN 0 a b else a)
  else if isInf b then b
  else
    let s := units a + units b
    if s = 0 then pack (neg a && neg b) 0
    else pack (decide (s < 0)) (roundMag s.natAbs 1)

/-- `fsub` of rule R127: the sum with the sign of the subtrahend flipped. -/
def sub (a b : Number) : Number :=
  if isNaN a || isNaN b then freeNaN 1 a b else add a (negate b)

/-- `fmul` of rule R127. -/
def mul (a b : Number) : Number :=
  let sign := neg a != neg b
  if isNaN a || isNaN b then freeNaN 2 a b
  else if isInf a || isInf b then
    (if (isFinite a && mag a == 0) || (isFinite b && mag b == 0) then freeNaN 2 a b else inf sign)
  else pack sign (roundMag (mag a * mag b) (2 ^ 1074))

/-- `fdiv` of rule R127; division by a zero follows IEEE 754 (log 8). -/
def div (a b : Number) : Number :=
  let sign := neg a != neg b
  if isNaN a || isNaN b then freeNaN 3 a b
  else if isInf a then (if isInf b then freeNaN 3 a b else inf sign)
  else if isInf b then pack sign 0
  else if mag b = 0 then (if mag a = 0 then freeNaN 3 a b else inf sign)
  else pack sign (roundMag (mag a * 2 ^ 1074) (mag b))

/-- `ofU64` of rule R127: "rounded to nearest even (exact for `k <= 2^53`)". -/
def ofU64 (k : DWord) : Number := pack false (roundMag (k.toNat * 2 ^ 1074) 1)

end Sys2Proof.Machine.Binary64
end

