-- ==== Sys2Proof/Machine/Welford.lean ====
section
/-! DEFINITION. The online statistics of the Collector (R125, R130) over any number format `Num`
(R7, R127): the block uses binary64; the exact rationals are the instance of R126. -/

namespace Sys2Proof.Machine

/-- The operations rule R127 asks of a number format. -/
structure NumOps (α : Type) where
  zero : α
  add : α → α → α
  sub : α → α → α
  mul : α → α → α
  div : α → α → α
  ofU64 : DWord → α

/-- The reference instance of rule R127 (log 5). -/
def binary64Ops : NumOps Number where
  zero := Binary64.zero
  add := Binary64.add
  sub := Binary64.sub
  mul := Binary64.mul
  div := Binary64.div
  ofU64 := Binary64.ofU64

/-- The exact-rational instance of rule R127. -/
def rationalOps : NumOps ℚ where
  zero := 0
  add := (· + ·)
  sub := (· - ·)
  mul := (· * ·)
  div := (· / ·)
  ofU64 k := (k.toNat : ℚ)

/-- One vector's entry of the three arrays: `M.n[v]`, `M.mean[v]`, `M.m2[v]`. -/
structure Acc (α : Type) where
  n : DWord
  mean : α
  m2 : α
deriving DecidableEq, Repr

/-- The entry after reset (R39). -/
def emptyAcc {α : Type} (ops : NumOps α) : Acc α where
  n := 0
  mean := ops.zero
  m2 := ops.zero

/-- The six steps of `StatsUpdate` (R125) on one entry. -/
def foldSample {α : Type} (ops : NumOps α) (acc : Acc α) (latency : DWord) : Acc α :=
  let n := acc.n + 1
  let x := ops.ofU64 latency
  let delta := ops.sub x acc.mean
  let mean := ops.add acc.mean (ops.div delta (ops.ofU64 n))
  let delta2 := ops.sub x mean
  { n := n, mean := mean, m2 := ops.add acc.m2 (ops.mul delta delta2) }

/-- A sequence of samples folded from the empty entry, the first sample first. -/
def foldSamples {α : Type} (ops : NumOps α) (samples : List DWord) : Acc α :=
  samples.foldl (foldSample ops) (emptyAcc ops)

/-- `Variance(v)` of rule R130: the sample variance, divisor `count - 1`; 0 below two samples. -/
def sampleVariance {α : Type} (ops : NumOps α) (acc : Acc α) : α :=
  if 1 < acc.n.toNat then ops.div acc.m2 (ops.ofU64 (acc.n - 1)) else ops.zero

end Sys2Proof.Machine
end

