-- ==== Sys2Proof/Machine/Ops.lean ====
section
/-! DEFINITION. The shared operations: the response port, the registers (R80, R81, R95 to R98, R112 to
R115), the statistics (R125, R130), the PIC's `Signal`, `Resolve` and `Acknowledge` (R105, R107, R109),
the timer's tick (R90 to R93) and reset (R137). The block takes no exception (R145): raising a request
and acknowledging it are its halves of interrupt entry and return (R152, R153). -/

namespace Sys2Proof.Machine

/-- The state with this response presented (R63). -/
def State.respond (s : State) (r : Response) : State := { s with response := r }

/-- The state with this Timer. -/
def State.setTimer (s : State) (t : Timer) : State := { s with timer := t }

/-- The state with this PIC. -/
def State.setPic (s : State) (p : Pic) : State := { s with pic := p }

/-- The state with these statistics. -/
def State.setMetrics (s : State) (m : Metrics) : State := { s with metrics := m }

/-- The state with this Clock. -/
def State.setCycles (s : State) (c : DWord) : State := { s with cycles := c }

/-- The state with these presentations still to perform. -/
def State.setInputs (s : State) (l : List Input) : State := { s with inputs := l }

/-! The Collector. -/

/-- One vector's entry of the statistics arrays (R22). -/
def entry (m : Metrics) (v : VectorIx) : Acc Number where
  n := m.n[v]
  mean := m.mean[v]
  m2 := m.m2[v]

/-- The arrays with the entry of one vector replaced. -/
def setEntry (m : Metrics) (v : VectorIx) (a : Acc Number) : Metrics where
  n := m.n.set v a.n
  mean := m.mean.set v a.mean
  m2 := m.m2.set v a.m2

/-- `StatsUpdate(v, latency)` (R125). -/
def statsUpdate (m : Metrics) (v : VectorIx) (latency : DWord) : Metrics :=
  setEntry m v (foldSample binary64Ops (entry m v) latency)

/-- `Variance(v)` (R130). -/
def variance (m : Metrics) (v : VectorIx) : Number := sampleVariance binary64Ops (entry m v)

/-! The PIC. -/

/-- `Signal(v)` (R105): whatever the mask and whether or not the vector is already pending. -/
def signal (vec : Int) (s : State) : State :=
  match vectorInRange vec with
  | none => s
  | some v =>
    s.setPic { s.pic with
      pendingBits := setPending s.pic.pendingBits v
      lec := s.pic.lec.set v s.cycles }

/-- `Resolve()` (R107): the lowest pending vector that is not masked. -/
def resolve (p : Pic) : Option VectorIx := lowestSet (p.pendingBits &&& ~~~p.maskBits)

/-- The vector's pending bit cleared: step 1 of `Acknowledge` (R109). -/
def dropRequest (p : Pic) (v : VectorIx) : Pic :=
  { p with pendingBits := clearPending p.pendingBits v }

/-- The recorded firing cycle consumed: the last line of `Acknowledge` (R109, R110). -/
def consumeFiringCycle (p : Pic) (v : VectorIx) : Pic :=
  { p with lec := p.lec.set v 0 }

/-- `latency <- cycles -_64 P.lec[v]` (R109). -/
def latencyOf (s : State) (v : VectorIx) : DWord := s.cycles - s.pic.lec[v]

/-- `Acknowledge(v)` for a vector in range (R109, R110): the sample is folded exactly when a firing
cycle is recorded, whether or not the pending bit was set. -/
def acknowledgeVector (v : VectorIx) (s : State) : State :=
  if s.pic.lec[v] = 0 then s.setPic (dropRequest s.pic v)
  else
    (s.setMetrics (statsUpdate s.metrics v (latencyOf s v))).setPic
      (consumeFiringCycle (dropRequest s.pic v) v)

/-- `Acknowledge(v)` (R109). -/
def acknowledge (vec : Int) (s : State) : State :=
  match vectorInRange vec with
  | none => s
  | some v => acknowledgeVector v s

/-- The response of IRQ_PENDING to `Resolve()` (R108). -/
def irqResponse : Option VectorIx → Response
  | none => .irq false 0
  | some v => .irq true (BitVec.ofFin v)

/-- The interrupt wire: `irq_valid` and `irq_vector` of `Resolve()` on the current state (R149, log 15). -/
def irqLine (s : State) : Response := irqResponse (resolve s.pic)

/-! The Timer. -/

/-- `Fire()` (R92). -/
def fire (s : State) : State :=
  let counted := s.setTimer { s.timer with
    eventsGenerated := s.timer.eventsGenerated + 1
    status := setFired s.timer.status }
  let signalled := if counted.timer.irqEnable then signal 0 counted else counted
  signalled.setTimer { signalled.timer with count := signalled.timer.period }

/-- `TimerTick()` (R90): idle (R91), firing (R92) or counting (R93), one of the three. -/
def timerTick (s : State) : State :=
  if s.timer.enabled = false ∨ s.timer.period = 0 then s
  else if s.timer.count = 0 then fire s
  else s.setTimer { s.timer with count := s.timer.count - 1 }

/-- `TICK()` (R89): the Clock first, then the timer, which sees the incremented Clock. -/
def tickBlock (s : State) : State := timerTick (s.setCycles (s.cycles + 1))

/-! The registers. -/

/-- What a 32-bit read of a Timer register returns (R95 to R98). -/
def readTimerReg (t : Timer) : TimerReg → Word
  | .ctrl => (BitVec.ofBool t.irqEnable ++ BitVec.ofBool t.enabled).setWidth 32
  | .period => t.period
  | .count => t.count
  | .status => t.status.setWidth 32

/-- What a 32-bit read of a PIC register returns (R112 to R115). -/
def readPicReg (p : Pic) : PicReg → Word
  | .mask => p.maskBits
  | .pending => p.pendingBits
  | .eoi => 0
  | .priority => 0

/-- What a 32-bit write of a Timer register does (R95 to R98). -/
def writeTimerReg (t : Timer) (r : TimerReg) (w : Word) : Timer :=
  match r with
  | .ctrl => { t with enabled := w.getLsbD 0, irqEnable := w.getLsbD 1 }
  | .period => { t with period := w }
  | .count => { t with count := w }
  | .status => { t with status := w.setWidth 8 }

/-- What a 32-bit write of a PIC register does (R112 to R115): MASK stores, PENDING is write-1-to-clear,
EOI acknowledges, PRIORITY ignores. -/
def writePicReg (r : PicReg) (w : Word) (s : State) : State :=
  match r with
  | .mask => s.setPic { s.pic with maskBits := w }
  | .pending => s.setPic { s.pic with pendingBits := writeOneToClear s.pic.pendingBits w }
  | .eoi => acknowledge (eoiVector w) s
  | .priority => s

/-- A 32-bit read of a register. -/
def readReg (s : State) : Reg → Word
  | .timer r => readTimerReg s.timer r
  | .pic r => readPicReg s.pic r

/-- A 32-bit write of a register. -/
def writeReg (s : State) (r : Reg) (w : Word) : State :=
  match r with
  | .timer r => s.setTimer (writeTimerReg s.timer r w)
  | .pic r => writePicReg r w s

/-- `RegRead32(addr)` (R80): holes and unmapped addresses read 0 (R42, R43). -/
def regRead32 (s : State) (addr : Word) : Word :=
  match regAt s.config addr with
  | some r => readReg s r
  | none => 0

/-- `RegWrite32(addr, w)` (R81): holes and unmapped addresses drop the word (R42, R43). -/
def regWrite32 (s : State) (addr w : Word) : State :=
  match regAt s.config addr with
  | some r => writeReg s r w
  | none => s

/-- The byte READ8 gives at an address (R82): the model's read of one byte. -/
def byteAt (s : State) (addr : Word) : Byte :=
  extract8 (regRead32 s (containingWord addr)) addr

/-- The half-word READ16 gives at an address (R83). -/
def halfAt (s : State) (addr : Word) : Half :=
  extract16 (regRead32 s (containingWord addr)) addr

/-- The read-modify-write of WRITE8 (R84). -/
def storeByte (s : State) (addr : Word) (b : Byte) : State :=
  regWrite32 s (containingWord addr) (merge8 (regRead32 s (containingWord addr)) addr b)

/-- The read-modify-write of WRITE16 (R85). -/
def storeHalf (s : State) (addr : Word) (h : Half) : State :=
  regWrite32 s (containingWord addr) (merge16 (regRead32 s (containingWord addr)) addr h)

/-- READ8 and READ16 zero-extended as a 32-bit data bus presents them (R63). -/
def busData : Response → Option Word
  | .rdata8 b => some (b.setWidth 32)
  | .rdata16 h => some (h.setWidth 32)
  | .rdata32 w => some w
  | _ => none

/-! Reset. -/

/-- Every element of rule R10 at its reset value of rule R39; the parameters and what the host has
presented are no state of the block and stay (R19, R137). -/
def initBlock (s : State) : State :=
  (((s.setCycles 0).setTimer Timer.reset).setPic Pic.reset).setMetrics Metrics.reset

/-- The hardware reset input: the effect of INIT_DEFAULT (R170). -/
def hardwareReset (s : State) : State := (initBlock s).respond .nothing

end Sys2Proof.Machine
end

