-- ==== Sys2Proof/Machine/Bus.lean ====
section
/-! DEFINITION. READ8, READ16, READ32, WRITE8, WRITE16, WRITE32 (`40_bus_access.md`). READ32 and
WRITE32 have one row for each register, each window's holes and the unmapped addresses (R73). -/

namespace Sys2Proof.Machine

/-- The outcome of a 32-bit read that answers `w`: no state changes (R50, R80). -/
def answerWord (w : Word) (s : State) : Host.Outcome State Fault Refusal :=
  .next (s.respond (.rdata32 w))

/-- The outcome of a write that leaves the block in `t`: no response (R63). -/
def written (t : State) : Host.Outcome State Fault Refusal :=
  .next (t.respond .nothing)

/-- READ8 (R82). -/
def execRead8 (addr : Word) (s : State) : Host.Outcome State Fault Refusal :=
  .next (s.respond (.rdata8 (byteAt s addr)))

/-- READ16 (R83). -/
def execRead16 (addr : Word) (s : State) : Host.Outcome State Fault Refusal :=
  .next (s.respond (.rdata16 (halfAt s addr)))

/-- WRITE8 (R84). -/
def execWrite8 (addr : Word) (data : Byte) (s : State) : Host.Outcome State Fault Refusal :=
  written (storeByte s addr data)

/-- WRITE16 (R85). -/
def execWrite16 (addr : Word) (data : Half) (s : State) : Host.Outcome State Fault Refusal :=
  written (storeHalf s addr data)

/-- READ32 of CTRL (R80, R95). -/
def execRead32TimerCtrl (s : State) : Host.Outcome State Fault Refusal :=
  answerWord (readReg s (.timer .ctrl)) s

/-- READ32 of PERIOD (R80, R96). -/
def execRead32TimerPeriod (s : State) : Host.Outcome State Fault Refusal :=
  answerWord (readReg s (.timer .period)) s

/-- READ32 of COUNT (R80, R97). -/
def execRead32TimerCount (s : State) : Host.Outcome State Fault Refusal :=
  answerWord (readReg s (.timer .count)) s

/-- READ32 of STATUS (R80, R98). -/
def execRead32TimerStatus (s : State) : Host.Outcome State Fault Refusal :=
  answerWord (readReg s (.timer .status)) s

/-- READ32 of MASK (R80, R112). -/
def execRead32PicMask (s : State) : Host.Outcome State Fault Refusal :=
  answerWord (readReg s (.pic .mask)) s

/-- READ32 of PENDING (R80, R113). -/
def execRead32PicPending (s : State) : Host.Outcome State Fault Refusal :=
  answerWord (readReg s (.pic .pending)) s

/-- READ32 of EOI (R80, R114). -/
def execRead32PicEoi (s : State) : Host.Outcome State Fault Refusal :=
  answerWord (readReg s (.pic .eoi)) s

/-- READ32 of PRIORITY (R80, R115). -/
def execRead32PicPriority (s : State) : Host.Outcome State Fault Refusal :=
  answerWord (readReg s (.pic .priority)) s

/-- READ32 of a hole of the Timer window, a misaligned address among them: 0 (R43, R46). -/
def execRead32TimerHole (_off : Byte) (s : State) : Host.Outcome State Fault Refusal :=
  answerWord 0 s

/-- READ32 of a hole of the Pic window, a misaligned address among them: 0 (R43, R46). -/
def execRead32PicHole (_off : Byte) (s : State) : Host.Outcome State Fault Refusal :=
  answerWord 0 s

/-- READ32 of an address in neither window: 0 (R42). -/
def execRead32Unmapped (_addr : Word) (s : State) : Host.Outcome State Fault Refusal :=
  answerWord 0 s

/-- WRITE32 of CTRL (R81, R95). -/
def execWrite32TimerCtrl (word : Word) (s : State) : Host.Outcome State Fault Refusal :=
  written (writeReg s (.timer .ctrl) word)

/-- WRITE32 of PERIOD (R81, R96). -/
def execWrite32TimerPeriod (word : Word) (s : State) : Host.Outcome State Fault Refusal :=
  written (writeReg s (.timer .period) word)

/-- WRITE32 of COUNT (R81, R97). -/
def execWrite32TimerCount (word : Word) (s : State) : Host.Outcome State Fault Refusal :=
  written (writeReg s (.timer .count) word)

/-- WRITE32 of STATUS (R81, R98). -/
def execWrite32TimerStatus (word : Word) (s : State) : Host.Outcome State Fault Refusal :=
  written (writeReg s (.timer .status) word)

/-- WRITE32 of MASK (R81, R112). -/
def execWrite32PicMask (word : Word) (s : State) : Host.Outcome State Fault Refusal :=
  written (writeReg s (.pic .mask) word)

/-- WRITE32 of PENDING (R81, R113). -/
def execWrite32PicPending (word : Word) (s : State) : Host.Outcome State Fault Refusal :=
  written (writeReg s (.pic .pending) word)

/-- WRITE32 of EOI (R81, R114). -/
def execWrite32PicEoi (word : Word) (s : State) : Host.Outcome State Fault Refusal :=
  written (writeReg s (.pic .eoi) word)

/-- WRITE32 of PRIORITY (R81, R115). -/
def execWrite32PicPriority (word : Word) (s : State) : Host.Outcome State Fault Refusal :=
  written (writeReg s (.pic .priority) word)

/-- WRITE32 of a hole of the Timer window, a misaligned address among them: ignored (R43, R46). -/
def execWrite32TimerHole (_off : Byte) (_word : Word) (s : State) : Host.Outcome State Fault Refusal :=
  written s

/-- WRITE32 of a hole of the Pic window, a misaligned address among them: ignored (R43, R46). -/
def execWrite32PicHole (_off : Byte) (_word : Word) (s : State) : Host.Outcome State Fault Refusal :=
  written s

/-- WRITE32 of an address in neither window: dropped (R42). -/
def execWrite32Unmapped (_addr _word : Word) (s : State) : Host.Outcome State Fault Refusal :=
  written s

end Sys2Proof.Machine
end

