-- ==== Sys2Proof/Machine/MetricsFamily.lean ====
section
/-! DEFINITION. GET_IRQ_STATS (`43_metrics.md`). -/

namespace Sys2Proof.Machine

/-- The response of GET_IRQ_STATS (R129): out of range, all zero. -/
def statsResponse (m : Metrics) (vec : Int) : Response :=
  match vectorInRange vec with
  | none => .stats 0 Binary64.zero Binary64.zero
  | some v => .stats m.n[v] m.mean[v] (variance m v)

/-- GET_IRQ_STATS (R129): a pure query. -/
def execGetIrqStats (vec : Word) (s : State) : Host.Outcome State Fault Refusal :=
  .next (s.respond (statsResponse s.metrics (signedVector vec)))

end Sys2Proof.Machine
end

