-- ==== Sys2Proof/Machine/PicFamily.lean ====
section
/-! DEFINITION. IRQ_PENDING, ACK_IRQ and SIGNAL (`42_pic.md`). -/

namespace Sys2Proof.Machine

/-- IRQ_PENDING (R108): a pure query. -/
def execIrqPending (s : State) : Host.Outcome State Fault Refusal :=
  .next (s.respond (irqLine s))

/-- ACK_IRQ (R111): `accepted` is the range test alone. -/
def execAckIrq (vec : Word) (s : State) : Host.Outcome State Fault Refusal :=
  match vectorInRange (signedVector vec) with
  | none => .next (s.respond (.accepted false))
  | some v => .next ((acknowledgeVector v s).respond (.accepted true))

/-- SIGNAL (R106). -/
def execSignal (vec : Word) (s : State) : Host.Outcome State Fault Refusal :=
  .next ((signal (signedVector vec) s).respond .nothing)

end Sys2Proof.Machine
end

