-- ==== Sys2Proof/Machine/SystemFamily.lean ====
section
/-! DEFINITION. GET_GLOBAL_CYCLES and INIT_DEFAULT (`44_system.md`), and the reserved codes (R69). -/

namespace Sys2Proof.Machine

/-- GET_GLOBAL_CYCLES (R136). -/
def execGetGlobalCycles (s : State) : Host.Outcome State Fault Refusal :=
  .next (s.respond (.cycles s.cycles))

/-- INIT_DEFAULT (R137). -/
def execInitDefault (s : State) : Host.Outcome State Fault Refusal :=
  .next ((initBlock s).respond .nothing)

/-- The operation of a reserved code: it completes, changes nothing and responds with nothing (R69). -/
def inert (s : State) : State := s.respond .nothing

/-- Reserved code 0xD (R69). -/
def execReservedD (s : State) : Host.Outcome State Fault Refusal := .next (inert s)

/-- Reserved code 0xE (R69). -/
def execReservedE (s : State) : Host.Outcome State Fault Refusal := .next (inert s)

/-- Reserved code 0xF (R69). -/
def execReservedF (s : State) : Host.Outcome State Fault Refusal := .next (inert s)

end Sys2Proof.Machine
end

