-- ==== Sys2Proof/Machine/Tick.lean ====
section
/-! DEFINITION. TICK (`41_timer.md`). -/

namespace Sys2Proof.Machine

/-- TICK (R89). -/
def execTick (s : State) : Host.Outcome State Fault Refusal :=
  .next ((tickBlock s).respond .nothing)

end Sys2Proof.Machine
end

