-- ==== Sys2Proof/Machine/Dispatch.lean ====
section
/-! DEFINITION. One arm per operation (R135). -/

namespace Sys2Proof.Machine

def exec (i : Instr) (s : State) : Host.Outcome State Fault Refusal :=
  match i with
  | .tick => Sys2Proof.Machine.execTick s
  | .irqPending => Sys2Proof.Machine.execIrqPending s
  | .ackIrq vec => Sys2Proof.Machine.execAckIrq vec s
  | .read8 addr => Sys2Proof.Machine.execRead8 addr s
  | .read16 addr => Sys2Proof.Machine.execRead16 addr s
  | .read32TimerCtrl => Sys2Proof.Machine.execRead32TimerCtrl s
  | .read32TimerPeriod => Sys2Proof.Machine.execRead32TimerPeriod s
  | .read32TimerCount => Sys2Proof.Machine.execRead32TimerCount s
  | .read32TimerStatus => Sys2Proof.Machine.execRead32TimerStatus s
  | .read32PicMask => Sys2Proof.Machine.execRead32PicMask s
  | .read32PicPending => Sys2Proof.Machine.execRead32PicPending s
  | .read32PicEoi => Sys2Proof.Machine.execRead32PicEoi s
  | .read32PicPriority => Sys2Proof.Machine.execRead32PicPriority s
  | .read32TimerHole off => Sys2Proof.Machine.execRead32TimerHole off s
  | .read32PicHole off => Sys2Proof.Machine.execRead32PicHole off s
  | .read32Unmapped addr => Sys2Proof.Machine.execRead32Unmapped addr s
  | .write8 addr data => Sys2Proof.Machine.execWrite8 addr data s
  | .write16 addr data => Sys2Proof.Machine.execWrite16 addr data s
  | .write32TimerCtrl word => Sys2Proof.Machine.execWrite32TimerCtrl word s
  | .write32TimerPeriod word => Sys2Proof.Machine.execWrite32TimerPeriod word s
  | .write32TimerCount word => Sys2Proof.Machine.execWrite32TimerCount word s
  | .write32TimerStatus word => Sys2Proof.Machine.execWrite32TimerStatus word s
  | .write32PicMask word => Sys2Proof.Machine.execWrite32PicMask word s
  | .write32PicPending word => Sys2Proof.Machine.execWrite32PicPending word s
  | .write32PicEoi word => Sys2Proof.Machine.execWrite32PicEoi word s
  | .write32PicPriority word => Sys2Proof.Machine.execWrite32PicPriority word s
  | .write32TimerHole off word => Sys2Proof.Machine.execWrite32TimerHole off word s
  | .write32PicHole off word => Sys2Proof.Machine.execWrite32PicHole off word s
  | .write32Unmapped addr word => Sys2Proof.Machine.execWrite32Unmapped addr word s
  | .getIrqStats vec => Sys2Proof.Machine.execGetIrqStats vec s
  | .getGlobalCycles => Sys2Proof.Machine.execGetGlobalCycles s
  | .initDefault => Sys2Proof.Machine.execInitDefault s
  | .signal vec => Sys2Proof.Machine.execSignal vec s
  | .reservedD => Sys2Proof.Machine.execReservedD s
  | .reservedE => Sys2Proof.Machine.execReservedE s
  | .reservedF => Sys2Proof.Machine.execReservedF s

end Sys2Proof.Machine
end

