-- ==== Sys2Proof/Machine/Fetch.lean ====
section
/-! DEFINITION. Taking the next presentation of the host: what stands here for an instruction fetch
(R12: the block has no program counter and fetches no instructions). -/

namespace Sys2Proof.Machine

/-- The oldest presentation not yet performed, and the state without it (R5, R53: in the order
presented). -/
def nextInput (s : State) : Option (Input × State) :=
  match s.inputs with
  | [] => none
  | i :: rest => some (i, s.setInputs rest)

end Sys2Proof.Machine
end

