-- ==== Sys2Proof/Machine/Step.lean ====
section
/-! DEFINITION. One step: the next thing the host has presented is performed. -/

namespace Sys2Proof.Machine

/-- One operation, or nothing when nothing is presented (R5, R12; log 1, log 2). -/
def step (s : State) : Host.Outcome State Fault Refusal :=
  match nextInput s with
  | none => .next s
  | some (.command c, s') => exec (decode s'.config c) s'
  | some (.hardwareReset, s') => .next (hardwareReset s')

/-- The state with a table row's bits presented as the next command (log 1, log 17). -/
def State.withFetchWord (s : State) (_nbits w : Nat) : State :=
  s.setInputs (.command (BitVec.ofNat 68 w) :: s.inputs)

end Sys2Proof.Machine
end

