-- ==== Sys2Proof/Machine/Macros.lean ====
section
/-! DEFINITION. The pseudo-operations of rule R75, each a fixed expansion into operations (log 16). -/

namespace Sys2Proof.Machine

/-- Operations performed in the order given, each complete before the next (R53). -/
def runOps : List Instr → State → Host.Outcome State Fault Refusal
  | [], s => .next s
  | i :: rest, s =>
    match exec i s with
    | .next t => runOps rest t
    | .fault f => .fault f
    | .refused r => .refused r

/-- `TICKS n`: TICK repeated `n` times (R75). -/
def ticksMacro (n : Nat) : List Instr := List.replicate n .tick

/-- `EOI vec`: `WRITE32 PIC.EOI, vec`, `vec` in 0..255 (R75). -/
def eoiMacro (vec : Byte) : Instr := .write32PicEoi (vec.setWidth 32)

/-- What the host does in SERVICE with the response to IRQ_PENDING: ACK_IRQ of the vector answered, or
nothing (R75). -/
def serviceAnswer (s : State) : Host.Outcome State Fault Refusal :=
  match s.response with
  | .irq true v => exec (.ackIrq (v.setWidth 32)) s
  | _ => .next s

/-- `SERVICE`: IRQ_PENDING, then the acknowledgment (R75). -/
def serviceMacro (s : State) : Host.Outcome State Fault Refusal :=
  match exec .irqPending s with
  | .next t => serviceAnswer t
  | .fault f => .fault f
  | .refused r => .refused r

end Sys2Proof.Machine
end

