-- ==== Sys2Proof/Machine/OpcodeTable.lean ====
section
/-! DEFINITION. `spec/opcode_table.json` as data, read as rule R73 says: the pattern, the mask and the
priority of each row, for the default bases. The decoder does not use it; statements compare the two. -/

namespace Sys2Proof.Machine

/-- One row of the table: a command `c` matches when `c & mask = match` (R73). -/
structure TableRow where
  mnemonic : String
  pattern : Command
  mask : Command
  priority : Nat
deriving DecidableEq, Repr

/-- `c & mask = match` (R73). -/
def rowMatches (r : TableRow) (c : Command) : Bool :=
  decide (c &&& r.mask = r.pattern)

/-- The eleven READ32 rows. -/
def tableRead32 : List TableRow := [
  ⟨"READ32.TIMER_CTRL", 0x51000000000000000#68, 0xFFFFFFFFF00000000#68, 3⟩,
  ⟨"READ32.TIMER_PERIOD", 0x51000000400000000#68, 0xFFFFFFFFF00000000#68, 3⟩,
  ⟨"READ32.TIMER_COUNT", 0x51000000800000000#68, 0xFFFFFFFFF00000000#68, 3⟩,
  ⟨"READ32.TIMER_STATUS", 0x51000000C00000000#68, 0xFFFFFFFFF00000000#68, 3⟩,
  ⟨"READ32.PIC_MASK", 0x510000F0000000000#68, 0xFFFFFFFFF00000000#68, 3⟩,
  ⟨"READ32.PIC_PENDING", 0x510000F0400000000#68, 0xFFFFFFFFF00000000#68, 3⟩,
  ⟨"READ32.PIC_EOI", 0x510000F0800000000#68, 0xFFFFFFFFF00000000#68, 3⟩,
  ⟨"READ32.PIC_PRIORITY", 0x510000F0C00000000#68, 0xFFFFFFFFF00000000#68, 3⟩,
  ⟨"READ32.TIMER_HOLE", 0x51000000000000000#68, 0xFFFFFFF0000000000#68, 2⟩,
  ⟨"READ32.PIC_HOLE", 0x510000F0000000000#68, 0xFFFFFFF0000000000#68, 2⟩,
  ⟨"READ32.UNMAPPED", 0x50000000000000000#68, 0xF0000000000000000#68, 1⟩ ]

/-- The eleven WRITE32 rows. -/
def tableWrite32 : List TableRow := [
  ⟨"WRITE32.TIMER_CTRL", 0x81000000000000000#68, 0xFFFFFFFFF00000000#68, 3⟩,
  ⟨"WRITE32.TIMER_PERIOD", 0x81000000400000000#68, 0xFFFFFFFFF00000000#68, 3⟩,
  ⟨"WRITE32.TIMER_COUNT", 0x81000000800000000#68, 0xFFFFFFFFF00000000#68, 3⟩,
  ⟨"WRITE32.TIMER_STATUS", 0x81000000C00000000#68, 0xFFFFFFFFF00000000#68, 3⟩,
  ⟨"WRITE32.PIC_MASK", 0x810000F0000000000#68, 0xFFFFFFFFF00000000#68, 3⟩,
  ⟨"WRITE32.PIC_PENDING", 0x810000F0400000000#68, 0xFFFFFFFFF00000000#68, 3⟩,
  ⟨"WRITE32.PIC_EOI", 0x810000F0800000000#68, 0xFFFFFFFFF00000000#68, 3⟩,
  ⟨"WRITE32.PIC_PRIORITY", 0x810000F0C00000000#68, 0xFFFFFFFFF00000000#68, 3⟩,
  ⟨"WRITE32.TIMER_HOLE", 0x81000000000000000#68, 0xFFFFFFF0000000000#68, 2⟩,
  ⟨"WRITE32.PIC_HOLE", 0x810000F0000000000#68, 0xFFFFFFF0000000000#68, 2⟩,
  ⟨"WRITE32.UNMAPPED", 0x80000000000000000#68, 0xF0000000000000000#68, 1⟩ ]

/-- The fourteen rows that an operation code alone decides. -/
def tableOther : List TableRow := [
  ⟨"TICK", 0x00000000000000000#68, 0xF0000000000000000#68, 3⟩,
  ⟨"IRQ_PENDING", 0x10000000000000000#68, 0xF0000000000000000#68, 3⟩,
  ⟨"ACK_IRQ", 0x20000000000000000#68, 0xF0000000000000000#68, 3⟩,
  ⟨"READ8", 0x30000000000000000#68, 0xF0000000000000000#68, 3⟩,
  ⟨"READ16", 0x40000000000000000#68, 0xF0000000000000000#68, 3⟩,
  ⟨"WRITE8", 0x60000000000000000#68, 0xF0000000000000000#68, 3⟩,
  ⟨"WRITE16", 0x70000000000000000#68, 0xF0000000000000000#68, 3⟩,
  ⟨"GET_IRQ_STATS", 0x90000000000000000#68, 0xF0000000000000000#68, 3⟩,
  ⟨"GET_GLOBAL_CYCLES", 0xA0000000000000000#68, 0xF0000000000000000#68, 3⟩,
  ⟨"INIT_DEFAULT", 0xB0000000000000000#68, 0xF0000000000000000#68, 3⟩,
  ⟨"SIGNAL", 0xC0000000000000000#68, 0xF0000000000000000#68, 3⟩,
  ⟨"RESERVED_D", 0xD0000000000000000#68, 0xF0000000000000000#68, 3⟩,
  ⟨"RESERVED_E", 0xE0000000000000000#68, 0xF0000000000000000#68, 3⟩,
  ⟨"RESERVED_F", 0xF0000000000000000#68, 0xF0000000000000000#68, 3⟩ ]

/-- The 36 rows (R73). -/
def opcodeTable : List TableRow := tableRead32 ++ tableWrite32 ++ tableOther

/-- Rule R73's decode: `r` is a row that matches `c`, and every other row that matches has a lower
priority. -/
def isDecodeRow (r : TableRow) (c : Command) : Prop :=
  r ∈ opcodeTable ∧ rowMatches r c = true ∧
    ∀ r' ∈ opcodeTable, rowMatches r' c = true → r' = r ∨ r'.priority < r.priority

end Sys2Proof.Machine
end

