-- ==== Sys2Proof/Safety.lean ====
section
/-! DEFINITION. The terms the statements use: what a completed operation is, the invariants of the
block, and the direct (non-incremental) statistics that rules R126 and R128 compare with. -/

namespace Sys2Proof.Machine

/-- The outcome is a next state: "every operation with every operand value completes normally" (R145). -/
def Completes (o : Host.Outcome State Fault Refusal) : Prop := ∃ t, o = .next t

/-- Counters and recorded firing cycles do not run ahead of the Clock (R18, R23). -/
def ClockBounds (s : State) : Prop :=
  s.timer.eventsGenerated.toNat ≤ s.cycles.toNat ∧
    ∀ v : VectorIx, s.pic.lec[v].toNat ≤ s.cycles.toNat

/-- What holds while the host never presents SIGNAL (R106): no SIGNAL is waiting, and vectors 1 to 31
were never raised, so they are not pending, have no firing cycle and no sample. -/
def PublicContract (s : State) : Prop :=
  (∀ c, Input.command c ∈ s.inputs → Command.op c ≠ 0xC#4) ∧
    ∀ v : VectorIx, v ≠ 0 →
      isPending s.pic v = false ∧ s.pic.lec[v] = 0 ∧ entry s.metrics v = emptyAcc binary64Ops

/-- The operations that only ask or that have no effect (R50, R69, R108, R129, R136), by their code. -/
def isQuery (i : Instr) : Bool :=
  [0x1#4, 0x3#4, 0x4#4, 0x5#4, 0x9#4, 0xA#4, 0xD#4, 0xE#4, 0xF#4].contains i.opcode

/-- The arithmetic mean of a list of samples (R126). -/
def directMean (xs : List DWord) : ℚ := (xs.map fun x => (x.toNat : ℚ)).sum / xs.length

/-- The sum of squared deviations from the mean (R126). -/
def directM2 (xs : List DWord) : ℚ := (xs.map fun x => ((x.toNat : ℚ) - directMean xs) ^ 2).sum

/-- The sample variance (R128, R130). -/
def directVariance (xs : List DWord) : ℚ :=
  if 1 < xs.length then directM2 xs / (xs.length - 1) else 0

/-- Agreement within a relative tolerance (R128). -/
def withinTolerance (rtol got exact : ℚ) : Prop := |got - exact| ≤ rtol * |exact|

/-- The tolerance contract of rule R128 for a number format whose values are read by `value`. -/
def MeetsTolerance {α : Type} (ops : NumOps α) (value : α → ℚ) (rtol : ℚ) : Prop :=
  ∀ xs : List DWord, xs ≠ [] → xs.length < 2 ^ 64 →
    withinTolerance rtol (value (foldSamples ops xs).mean) (directMean xs) ∧
      withinTolerance rtol (value (sampleVariance ops (foldSamples ops xs))) (directVariance xs)

/-- `r` is a nearest binary64 number to `q`, and the one with an even last bit when another is as near. -/
def IsNearestEven (r : Number) (q : ℚ) : Prop :=
  ∀ c : Number, Binary64.isFinite c = true →
    |Binary64.toRat r - q| ≤ |Binary64.toRat c - q| ∧
    (|Binary64.toRat r - q| = |Binary64.toRat c - q| → Binary64.toRat c ≠ Binary64.toRat r →
      r.getLsbD 0 = false)

/-- The least magnitude that rounds to an infinity: half a last place above the greatest finite number
(R127; PRESUMED, log 6). -/
def overflowThreshold : ℚ := 2 ^ 1024 - 2 ^ 970

end Sys2Proof.Machine
end

