-- ==== Sys2Proof/Certificates/Slice0/Obligations.lean ====
section
/-! DEFINITION. The statements for the provers, each from the numbered rules of spec/ that its docstring
names. Every statement of an outcome gives the whole next state, so that it is its own frame. The fields
`inputs` and `response` of that state are the model's own (DESIGN CHOICE, logs 1 and 3): what the host has
presented, and the response of R63. `[derived]` marks a rule that the spec itself marks as derived. -/

open Sys2Proof Sys2Proof.Machine

/-! Encodings. -/

/-- Decode and encode agree (R60, R61, R66, R73): a well-formed instruction comes back from its word. -/
def Obligations.DecodeOfEncodeIsTheInstruction : Prop :=
  ∀ (cfg : Config) (i : Instr), cfg.WF → i.wf cfg = true → decode cfg (encode cfg i) = i

/-- The other direction (R62): encoding what a word decodes to gives the word with its ignored bits 0. -/
def Obligations.EncodeOfDecodeIsCanonical : Prop :=
  ∀ (cfg : Config) (c : Command), cfg.WF → encode cfg (decode cfg c) = canonicalCommand c

/-- Whatever a word decodes to is well formed (R43, R46, R73). -/
def Obligations.DecodedInstructionsAreWellFormed : Prop :=
  ∀ (cfg : Config) (c : Command), (decode cfg c).wf cfg = true

/-- The decoder is the table's decode (R73): with the default bases every command has the row of highest
priority that matches it, and the instruction read is that row's. -/
def Obligations.DecoderFollowsTheOpcodeTable : Prop :=
  ∀ c : Command, ∃ r, isDecodeRow r c ∧ r.mnemonic = (decode Config.standard c).mnemonic

/-- Words written out from the encodings (R60, R61, R66, R67) decode to what they stand for. -/
def Obligations.WordsWrittenOutDecode : Prop :=
  decode Config.standard 0x0DEADBEEF12345678#68 = .tick ∧
  decode Config.standard 0x200000000FFFFFFFF#68 = .ackIrq 0xFFFFFFFF#32 ∧
  decode Config.standard 0x51000000400000000#68 = .read32TimerPeriod ∧
  decode Config.standard 0x610000006FFFFFFAB#68 = .write8 0x10000006#32 0xAB#8 ∧
  decode Config.standard 0x810000F0800000105#68 = .write32PicEoi 0x105#32 ∧
  decode Config.standard 0x810000F0500000001#68 = .write32PicHole 0x05#8 0x1#32

/-- Ignored operand bits (R62): two commands that agree on the bits their operation uses have the same
effect on the state and the same response. -/
def Obligations.IgnoredBitsHaveNoEffect : Prop :=
  ∀ (s : State) (rest : List Input) (c c' : Command), canonicalCommand c = canonicalCommand c' →
    step (s.setInputs (.command c :: rest)) = step (s.setInputs (.command c' :: rest))

/-! The step. -/

/-- A step runs the decoded instruction (R5, R53): with command `c` presented first, the step is `exec` of
the instruction `c` decodes to, at the state without that presentation. -/
def Obligations.StepRunsTheDecodedInstruction : Prop :=
  ∀ (s : State) (c : Command) (rest : List Input), s.inputs = .command c :: rest →
    (decode s.config c).wf s.config = true ∧ step s = exec (decode s.config c) (s.setInputs rest)

/-- Hardware reset has the effect of INIT_DEFAULT (R170): every element of R10 at its reset value. -/
def Obligations.HardwareResetIsInitDefault : Prop :=
  ∀ (s : State) (rest : List Input), s.inputs = .hardwareReset :: rest →
    step s = exec .initDefault (s.setInputs rest) ∧
    step s = .next { State.reset with config := s.config, inputs := rest }

/-- With nothing presented the block does not act (R5); that a step with no input is a step that changes
nothing is the model's reading (log 2). -/
def Obligations.NothingPresentedNothingDone : Prop :=
  ∀ s : State, s.inputs = [] → step s = .next s

/-- No fault and no refusal (R145): every step, and every operation with every operand in every state,
completes with a next state. -/
def Obligations.EveryStepCompletes : Prop :=
  (∀ s : State, Completes (step s)) ∧ ∀ (i : Instr) (s : State), Completes (exec i s)

/-- The parameters are fixed for a run (R19), and a step takes exactly the oldest presentation (R53). -/
def Obligations.StepKeepsParametersAndTakesOneInput : Prop :=
  ∀ s t : State, step s = .next t → t.config = s.config ∧ t.inputs = s.inputs.tail

/-! TICK. -/

/-- TICK (R89 to R93): the Clock advances; then exactly one arm is taken: idle, firing or counting. -/
def Obligations.TickTakesExactlyOneArm : Prop :=
  ∀ s : State,
    ((s.timer.enabled = false ∨ s.timer.period = 0) →
      exec .tick s = .next { s with cycles := s.cycles + 1, response := .nothing }) ∧
    (s.timer.enabled = true → s.timer.period ≠ 0 → s.timer.count = 0 →
      exec .tick s = .next { s with
        cycles := s.cycles + 1
        timer := { s.timer with
          eventsGenerated := s.timer.eventsGenerated + 1
          status := s.timer.status ||| 1
          count := s.timer.period }
        pic := if s.timer.irqEnable = true then { s.pic with
            pendingBits := s.pic.pendingBits ||| 1
            lec := s.pic.lec.set 0 (s.cycles + 1) }
          else s.pic
        response := .nothing }) ∧
    (s.timer.enabled = true → s.timer.period ≠ 0 → s.timer.count ≠ 0 →
      (s.timer.count - 1).toNat + 1 = s.timer.count.toNat ∧
      exec .tick s = .next { s with
        cycles := s.cycles + 1
        timer := { s.timer with count := s.timer.count - 1 }
        response := .nothing })

/-- Firing cadence (R94 [derived] from R90, R92, R93): with period `P > 0` and the count at `c`, the first fire comes on TICK `c + 1`
and the next ones every `P + 1` TICKs; after `N` TICKs the event count has grown by
`floor((N - c - 1) / (P + 1)) + 1` and the count stands where the countdown has brought it. -/
def Obligations.FiringCadence : Prop :=
  ∀ (s : State) (N : Nat), s.timer.enabled = true → s.timer.period ≠ 0 →
    ∃ t, runOps (ticksMacro N) s = .next t ∧
      t.cycles = s.cycles + BitVec.ofNat 64 N ∧
      t.timer.enabled = true ∧ t.timer.period = s.timer.period ∧
      (N ≤ s.timer.count.toNat →
        t.timer.count.toNat = s.timer.count.toNat - N ∧
        t.timer.eventsGenerated = s.timer.eventsGenerated) ∧
      (s.timer.count.toNat < N →
        t.timer.count.toNat =
          s.timer.period.toNat - (N - s.timer.count.toNat - 1) % (s.timer.period.toNat + 1) ∧
        t.timer.eventsGenerated = s.timer.eventsGenerated +
          BitVec.ofNat 64 ((N - s.timer.count.toNat - 1) / (s.timer.period.toNat + 1) + 1))

/-! The interrupt controller. -/

/-- SIGNAL (R105, R106): in range the pending bit is set and the current cycle recorded, whatever the mask
and the pending bit were; out of range nothing happens. -/
def Obligations.SignalRaisesARequest : Prop :=
  ∀ s : State,
    (∀ v : VectorIx, exec (.signal (BitVec.ofNat 32 v)) s = .next { s with
      pic := { s.pic with
        pendingBits := s.pic.pendingBits ||| (1#32 <<< v.val)
        lec := s.pic.lec.set v s.cycles }
      response := .nothing }) ∧
    ∀ vec : Word, (vec.toInt < 0 ∨ 32 ≤ vec.toInt) →
      exec (.signal vec) s = .next { s with response := .nothing }

/-- IRQ_PENDING (R107, R108): the lowest pending unmasked vector, or none; no state changes. -/
def Obligations.IrqPendingAnswersTheLowestVector : Prop :=
  ∀ s : State,
    (∀ v : VectorIx, s.pic.pendingBits.getLsbD v = true → s.pic.maskBits.getLsbD v = false →
      (∀ w : VectorIx, w < v → s.pic.pendingBits.getLsbD w = false ∨ s.pic.maskBits.getLsbD w = true) →
      exec .irqPending s = .next { s with response := .irq true (BitVec.ofNat 5 v) }) ∧
    ((∀ v : VectorIx, s.pic.pendingBits.getLsbD v = false ∨ s.pic.maskBits.getLsbD v = true) →
      exec .irqPending s = .next { s with response := .irq false 0 })

/-- ACK_IRQ (R109, R111, R125) in the binary64 instance (R127; the model's choice of instance, log 5, and of
IEEE 754's meaning, log 6): in range the request is dropped and accepted; with a firing cycle recorded one
sample is folded by the six steps of R125, each in binary64, and the firing cycle is consumed; out of
range nothing happens and the answer is 0. -/
def Obligations.AckIrqFoldsOneSample : Prop :=
  ∀ s : State,
    (∀ v : VectorIx, s.pic.lec[v] = 0 → exec (.ackIrq (BitVec.ofNat 32 v)) s = .next { s with
      pic := { s.pic with pendingBits := s.pic.pendingBits &&& ~~~(1#32 <<< v.val) }
      response := .accepted true }) ∧
    (∀ v : VectorIx, s.pic.lec[v] ≠ 0 →
      ∃ (x delta mean delta2 : Number),
        x = Binary64.ofU64 (s.cycles - s.pic.lec[v]) ∧
        delta = Binary64.sub x s.metrics.mean[v] ∧
        mean = Binary64.add s.metrics.mean[v]
          (Binary64.div delta (Binary64.ofU64 (s.metrics.n[v] + 1))) ∧
        delta2 = Binary64.sub x mean ∧
        exec (.ackIrq (BitVec.ofNat 32 v)) s = .next { s with
          pic := { s.pic with
            pendingBits := s.pic.pendingBits &&& ~~~(1#32 <<< v.val)
            lec := s.pic.lec.set v 0 }
          metrics := {
            n := s.metrics.n.set v (s.metrics.n[v] + 1)
            mean := s.metrics.mean.set v mean
            m2 := s.metrics.m2.set v
              (Binary64.add s.metrics.m2[v] (Binary64.mul delta delta2)) }
          response := .accepted true }) ∧
    ∀ vec : Word, (vec.toInt < 0 ∨ 32 ≤ vec.toInt) →
      exec (.ackIrq vec) s = .next { s with response := .accepted false }

/-- Acknowledge idempotence (R155): with no firing recorded no statistic changes, and a second
acknowledgment in a row changes nothing at all. -/
def Obligations.SecondAcknowledgmentChangesNothing : Prop :=
  (∀ (s : State) (v : VectorIx), s.pic.lec[v] = 0 →
    ∃ t, exec (.ackIrq (BitVec.ofNat 32 v)) s = .next t ∧ t.metrics = s.metrics) ∧
  ∀ (s : State) (vec : Word), ∃ t, exec (.ackIrq vec) s = .next t ∧ exec (.ackIrq vec) t = .next t

/-- EOI (R114): it reads 0; a write acknowledges the vector in its low byte as ACK_IRQ of that byte does,
without a response, and a low byte of 32 to 255 does nothing. -/
def Obligations.EoiAcknowledgesTheLowByte : Prop :=
  ∀ s : State,
    exec .read32PicEoi s = .next { s with response := .rdata32 0 } ∧
    (∀ w : Word, ∃ t, exec (.ackIrq (w &&& 0xFF#32)) s = .next t ∧
      exec (.write32PicEoi w) s = .next { t with response := .nothing }) ∧
    ∀ w : Word, 32 ≤ (w &&& 0xFF#32).toNat →
      exec (.write32PicEoi w) s = .next { s with response := .nothing }

/-- The SERVICE macro (R75, R107): it acknowledges the lowest pending unmasked vector, or does nothing but
ask. -/
def Obligations.ServiceAcknowledgesTheLowestVector : Prop :=
  ∀ s : State,
    (∀ v : VectorIx, s.pic.pendingBits.getLsbD v = true → s.pic.maskBits.getLsbD v = false →
      (∀ w : VectorIx, w < v → s.pic.pendingBits.getLsbD w = false ∨ s.pic.maskBits.getLsbD w = true) →
      ∃ t, serviceMacro s = .next t ∧ exec (.ackIrq (BitVec.ofNat 32 v)) s = .next t ∧
        t.response = .accepted true ∧ t.pic.pendingBits.getLsbD v = false) ∧
    ((∀ v : VectorIx, s.pic.pendingBits.getLsbD v = false ∨ s.pic.maskBits.getLsbD v = true) →
      serviceMacro s = .next { s with response := .irq false 0 })

/-- Merged requests (R105, R109; R186 and R194 [derived]) in the binary64 instance (R127; the model's choice
of instance, log 5): of two signals of a vector with TICKs of a stopped timer between, the acknowledgment
folds one sample in binary64, the number of TICKs since the second. -/
def Obligations.LatencyIsFromTheLatestSignal : Prop :=
  ∀ (s : State) (v : VectorIx) (j k : Nat), s.timer.enabled = false →
    s.cycles + BitVec.ofNat 64 j ≠ 0 →
    ∃ t, runOps ([Instr.signal (BitVec.ofNat 32 v)] ++ ticksMacro j ++ [.signal (BitVec.ofNat 32 v)] ++
        ticksMacro k ++ [.ackIrq (BitVec.ofNat 32 v)]) s = .next t ∧
      entry t.metrics v = foldSample binary64Ops (entry s.metrics v) (BitVec.ofNat 64 k) ∧
      isPending t.pic v = false ∧ t.pic.lec[v] = 0

/-! The statistics. -/

/-- GET_IRQ_STATS (R129, R130) in the binary64 instance (R127; the model's choice of instance, log 5, and of
IEEE 754's meaning, log 6): count, mean, and the sample variance, the binary64 quotient of m2 by the count
less 1, which is 0 below two samples; out of range all 0; no state changes. -/
def Obligations.GetIrqStatsAnswersTheStatistics : Prop :=
  ∀ s : State,
    (∀ v : VectorIx, s.metrics.n[v].toNat ≤ 1 → exec (.getIrqStats (BitVec.ofNat 32 v)) s =
      .next { s with response := .stats s.metrics.n[v] s.metrics.mean[v] 0 }) ∧
    (∀ v : VectorIx, 1 < s.metrics.n[v].toNat → exec (.getIrqStats (BitVec.ofNat 32 v)) s =
      .next { s with
        response := .stats s.metrics.n[v] s.metrics.mean[v]
          (Binary64.div s.metrics.m2[v] (Binary64.ofU64 (s.metrics.n[v] - 1))) }) ∧
    ∀ vec : Word, (vec.toInt < 0 ∨ 32 ≤ vec.toInt) →
      exec (.getIrqStats vec) s = .next { s with response := .stats 0 0 0 }

/-- Welford's update in exact arithmetic (R126 [derived] from R125): the accumulators hold the count, the arithmetic mean and
the sum of squared deviations; for 1, 2, 3, 4, 5 they end at 5, 3, 10. -/
def Obligations.WelfordIsExactOverTheRationals : Prop :=
  (∀ xs : List DWord, xs ≠ [] → xs.length < 2 ^ 64 →
    (foldSamples rationalOps xs).n.toNat = xs.length ∧
    (foldSamples rationalOps xs).mean = directMean xs ∧
    (foldSamples rationalOps xs).m2 = directM2 xs) ∧
  foldSamples rationalOps [1, 2, 3, 4, 5] = { n := 5, mean := 3, m2 := 10 }

/-- The tolerance contract (R128; it rests on R126 [derived]) of the exact-rational instance: it holds for every tolerance that is not
negative, and so for `STATS_RTOL`, whatever it is. -/
def Obligations.ExactInstanceMeetsTheTolerance : Prop :=
  (∀ rtol : ℚ, 0 ≤ rtol → MeetsTolerance rationalOps id rtol) ∧
  MeetsTolerance rationalOps id Config.statsRtol

/-- Conversion to binary64 is exact up to `2^53` (R127; the layout of a number is PRESUMED, log 6). -/
def Obligations.ConversionIsExactUpTo53Bits : Prop :=
  ∀ k : DWord, k.toNat ≤ 2 ^ 53 →
    Binary64.isFinite (Binary64.ofU64 k) = true ∧ Binary64.toRat (Binary64.ofU64 k) = (k.toNat : ℚ)

/-- Rounding to nearest even in the binary64 instance (R127; IEEE 754's meaning of it is PRESUMED, log 6): a
FINITE result of each operation on finite operands is a nearest number to the exact result, ties to even.
`FiniteExactlyBelowTheOverflowThreshold` says when a result is finite. -/
def Obligations.OperationsRoundToNearestEven : Prop :=
  (∀ a b : Number, Binary64.isFinite a = true → Binary64.isFinite b = true →
    (Binary64.isFinite (Binary64.add a b) = true →
      IsNearestEven (Binary64.add a b) (Binary64.toRat a + Binary64.toRat b)) ∧
    (Binary64.isFinite (Binary64.sub a b) = true →
      IsNearestEven (Binary64.sub a b) (Binary64.toRat a - Binary64.toRat b)) ∧
    (Binary64.isFinite (Binary64.mul a b) = true →
      IsNearestEven (Binary64.mul a b) (Binary64.toRat a * Binary64.toRat b)) ∧
    (Binary64.toRat b ≠ 0 → Binary64.isFinite (Binary64.div a b) = true →
      IsNearestEven (Binary64.div a b) (Binary64.toRat a / Binary64.toRat b))) ∧
  ∀ k : DWord, Binary64.isFinite (Binary64.ofU64 k) = true ∧
    IsNearestEven (Binary64.ofU64 k) (k.toNat : ℚ)

/-- Equal samples (R132 [derived]; the meaning of the operations is PRESUMED, log 6): any number of samples equal to `c`, one included, give mean `c` and `m2` exactly
positive zero in binary64. -/
def Obligations.EqualSamplesHaveNoSpread : Prop :=
  ∀ (c : DWord) (k : Nat), 0 < k → k < 2 ^ 64 →
    foldSamples binary64Ops (List.replicate k c) =
      { n := BitVec.ofNat 64 k, mean := Binary64.ofU64 c, m2 := 0 }

/-- Samples are counted by acknowledgments alone (R25, R109, R110), in the binary64 instance (R127; the
model's choice of instance, log 5): an operation other than INIT_DEFAULT leaves a vector's entry as it
is, or folds one sample for it in binary64 and consumes its firing cycle. -/
def Obligations.OneSamplePerRecordedFiring : Prop :=
  ∀ (i : Instr) (s : State) (v : VectorIx), i ≠ .initDefault →
    ∃ t, exec i s = .next t ∧
      (entry t.metrics v = entry s.metrics v ∨
        (entry t.metrics v =
            foldSample binary64Ops (entry s.metrics v) (s.cycles - s.pic.lec[v]) ∧
          s.pic.lec[v] ≠ 0 ∧ t.pic.lec[v] = 0))

/-! The register bus. -/

/-- READ32 of the Timer registers (R80, R95 to R98): the backing state, no side effect. -/
def Obligations.Read32OfTimerRegisters : Prop :=
  ∀ s : State,
    exec .read32TimerCtrl s = .next { s with
      response := .rdata32
        ((if s.timer.enabled then 1 else 0) + (if s.timer.irqEnable then 2 else 0)) } ∧
    exec .read32TimerPeriod s = .next { s with response := .rdata32 s.timer.period } ∧
    exec .read32TimerCount s = .next { s with response := .rdata32 s.timer.count } ∧
    exec .read32TimerStatus s = .next { s with
      response := .rdata32 (BitVec.ofNat 32 s.timer.status.toNat) }

/-- READ32 of the PIC registers, of holes and of unmapped addresses (R42, R43, R80, R112 to R115): MASK and
PENDING answer their bitmaps, everything else 0; no side effect. -/
def Obligations.Read32OfPicRegistersAndElsewhere : Prop :=
  ∀ s : State,
    exec .read32PicMask s = .next { s with response := .rdata32 s.pic.maskBits } ∧
    exec .read32PicPending s = .next { s with response := .rdata32 s.pic.pendingBits } ∧
    exec .read32PicEoi s = .next { s with response := .rdata32 0 } ∧
    exec .read32PicPriority s = .next { s with response := .rdata32 0 } ∧
    (∀ off, exec (.read32TimerHole off) s = .next { s with response := .rdata32 0 }) ∧
    (∀ off, exec (.read32PicHole off) s = .next { s with response := .rdata32 0 }) ∧
    ∀ addr, exec (.read32Unmapped addr) s = .next { s with response := .rdata32 0 }

/-- WRITE32 of the Timer registers (R81, R95 to R98): the named field and nothing else. -/
def Obligations.Write32OfTimerRegisters : Prop :=
  ∀ (s : State) (w : Word),
    exec (.write32TimerCtrl w) s = .next { s with
      timer := { s.timer with enabled := w.getLsbD 0, irqEnable := w.getLsbD 1 }
      response := .nothing } ∧
    exec (.write32TimerPeriod w) s = .next { s with
      timer := { s.timer with period := w }, response := .nothing } ∧
    exec (.write32TimerCount w) s = .next { s with
      timer := { s.timer with count := w }, response := .nothing } ∧
    exec (.write32TimerStatus w) s = .next { s with
      timer := { s.timer with status := BitVec.ofNat 8 (w.toNat % 256) }, response := .nothing }

/-- WRITE32 of MASK, PENDING and PRIORITY, of holes and of unmapped addresses (R42, R43, R81, R112, R113,
R115): MASK stores, PENDING clears exactly the bits set in the word and can set none, the rest is
ignored. -/
def Obligations.Write32OfPicRegistersAndElsewhere : Prop :=
  ∀ (s : State) (w : Word),
    exec (.write32PicMask w) s = .next { s with
      pic := { s.pic with maskBits := w }, response := .nothing } ∧
    (∃ p : Word, (∀ v : VectorIx, p.getLsbD v = (s.pic.pendingBits.getLsbD v && !w.getLsbD v)) ∧
      exec (.write32PicPending w) s = .next { s with
        pic := { s.pic with pendingBits := p }, response := .nothing }) ∧
    exec (.write32PicPriority w) s = .next { s with response := .nothing } ∧
    (∀ off, exec (.write32TimerHole off w) s = .next { s with response := .nothing }) ∧
    (∀ off, exec (.write32PicHole off w) s = .next { s with response := .nothing }) ∧
    ∀ addr, exec (.write32Unmapped addr w) s = .next { s with response := .nothing }

/-- READ32 as presented (R41, R42, R43, R46, R80): for every address, exactly one of the eight register
addresses answers its register and every other address answers 0; the `d` operand is ignored. -/
def Obligations.Read32CommandAtEveryAddress : Prop :=
  ∀ (s : State) (rest : List Input) (a d : Word), s.config.WF →
    s.inputs = .command (command 0x5#4 a d) :: rest →
    step s = .next { s with
      inputs := rest
      response := .rdata32 (
        if a = s.config.timerBase then
          (if s.timer.enabled then 1 else 0) + (if s.timer.irqEnable then 2 else 0)
        else if a = s.config.timerBase + 0x4#32 then s.timer.period
        else if a = s.config.timerBase + 0x8#32 then s.timer.count
        else if a = s.config.timerBase + 0xC#32 then BitVec.ofNat 32 s.timer.status.toNat
        else if a = s.config.picBase then s.pic.maskBits
        else if a = s.config.picBase + 0x4#32 then s.pic.pendingBits
        else 0) }

/-- WRITE32 as presented (R41, R42, R43, R46, R81): for every address. -/
def Obligations.Write32CommandAtEveryAddress : Prop :=
  ∀ (s : State) (rest : List Input) (a w : Word), s.config.WF →
    s.inputs = .command (command 0x8#4 a w) :: rest →
    ∃ u, exec (.ackIrq (w &&& 0xFF#32)) { s with inputs := rest } = .next u ∧
      step s = .next (
        if a = s.config.timerBase then { s with
          timer := { s.timer with enabled := w.getLsbD 0, irqEnable := w.getLsbD 1 }
          inputs := rest, response := .nothing }
        else if a = s.config.timerBase + 0x4#32 then { s with
          timer := { s.timer with period := w }, inputs := rest, response := .nothing }
        else if a = s.config.timerBase + 0x8#32 then { s with
          timer := { s.timer with count := w }, inputs := rest, response := .nothing }
        else if a = s.config.timerBase + 0xC#32 then { s with
          timer := { s.timer with status := BitVec.ofNat 8 w.toNat }
          inputs := rest, response := .nothing }
        else if a = s.config.picBase then { s with
          pic := { s.pic with maskBits := w }, inputs := rest, response := .nothing }
        else if a = s.config.picBase + 0x4#32 then { s with
          pic := { s.pic with pendingBits := s.pic.pendingBits &&& ~~~w }
          inputs := rest, response := .nothing }
        else if a = s.config.picBase + 0x8#32 then { u with response := .nothing }
        else { s with inputs := rest, response := .nothing })

/-- Round trip (R87 [derived] from R80, R81): a WRITE32 and then a READ32 of the same register, as presented at its address. -/
def Obligations.RegisterRoundTrip : Prop :=
  ∀ (s : State) (v d : Word) (r : Reg), s.config.WF →
    s.inputs = [.command (command 0x8#4 (regAddr s.config r) v),
      .command (command 0x5#4 (regAddr s.config r) d)] →
    ∃ t, Sys2Proof.core.run 2 s = .next t ∧
      t.response = .rdata32 (match r with
        | .timer .ctrl => v &&& 0x00000003#32
        | .timer .period => v
        | .timer .count => v
        | .timer .status => v &&& 0x000000FF#32
        | .pic .mask => v
        | .pic .pending => s.pic.pendingBits &&& ~~~v
        | .pic .eoi => 0
        | .pic .priority => 0)

/-- READ8 and READ16 (R45, R47, R82, R83): bit `i` of the answer is bit `8 * a[1:0] + i` of what a READ32 of
the containing word answers, 0 past bit 31; nothing else changes. -/
def Obligations.SubWordReadsTakeTheLane : Prop :=
  ∀ (s : State) (a : Word), ∃ (w : Word) (b : Byte) (h : Half),
    exec (decodeRead32 s.config (BitVec.ofNat 32 (a.toNat - a.toNat % 4))) s =
      .next { s with response := .rdata32 w } ∧
    (∀ i < 8, b.getLsbD i = w.getLsbD (8 * (a.toNat % 4) + i)) ∧
    (∀ i < 16, h.getLsbD i = w.getLsbD (8 * (a.toNat % 4) + i)) ∧
    exec (.read8 a) s = .next { s with response := .rdata8 b } ∧
    exec (.read16 a) s = .next { s with response := .rdata16 h }

/-- WRITE8 of PERIOD, COUNT and MASK (R84; R86 [derived]): only the addressed byte of the register changes. -/
def Obligations.Write8StoresOneByte : Prop :=
  ∀ (s : State) (k : Nat) (b : Byte), s.config.WF → k < 4 →
    let stored (old w : Word) : Prop := ∀ j < 32,
      w.getLsbD j = if 8 * k ≤ j ∧ j < 8 * k + 8 then b.getLsbD (j - 8 * k) else old.getLsbD j
    (∃ w, stored s.timer.period w ∧
      exec (.write8 (s.config.timerBase + 4 + BitVec.ofNat 32 k) b) s =
        .next { s with timer := { s.timer with period := w }, response := .nothing }) ∧
    (∃ w, stored s.timer.count w ∧
      exec (.write8 (s.config.timerBase + 8 + BitVec.ofNat 32 k) b) s =
        .next { s with timer := { s.timer with count := w }, response := .nothing }) ∧
    ∃ w, stored s.pic.maskBits w ∧
      exec (.write8 (s.config.picBase + BitVec.ofNat 32 k) b) s =
        .next { s with pic := { s.pic with maskBits := w }, response := .nothing }

/-- WRITE16 of PERIOD, COUNT and MASK (R47, R85; R86 [derived]): only the addressed half-word of the register changes,
and at lane 3 only its top byte; the next word is not reached. -/
def Obligations.Write16StoresOneHalfWord : Prop :=
  ∀ (s : State) (k : Nat) (h : Half), s.config.WF → k < 4 →
    let stored (old w : Word) : Prop := ∀ j < 32,
      w.getLsbD j = if 8 * k ≤ j ∧ j < 8 * k + 16 then h.getLsbD (j - 8 * k) else old.getLsbD j
    (∃ w, stored s.timer.period w ∧
      exec (.write16 (s.config.timerBase + 4 + BitVec.ofNat 32 k) h) s =
        .next { s with timer := { s.timer with period := w }, response := .nothing }) ∧
    (∃ w, stored s.timer.count w ∧
      exec (.write16 (s.config.timerBase + 8 + BitVec.ofNat 32 k) h) s =
        .next { s with timer := { s.timer with count := w }, response := .nothing }) ∧
    ∃ w, stored s.pic.maskBits w ∧
      exec (.write16 (s.config.picBase + BitVec.ofNat 32 k) h) s =
        .next { s with pic := { s.pic with maskBits := w }, response := .nothing }

/-- Sub-word writes of CTRL and STATUS (R84, R85; R86 [derived]): with lane 0 the stored bits are the data's low ones; with any
other lane nothing changes. -/
def Obligations.SubWordWritesOfCtrlAndStatus : Prop :=
  ∀ (s : State) (b : Byte) (h : Half), s.config.WF →
    exec (.write8 s.config.timerBase b) s = .next { s with
      timer := { s.timer with enabled := b.getLsbD 0, irqEnable := b.getLsbD 1 }
      response := .nothing } ∧
    exec (.write16 s.config.timerBase h) s = .next { s with
      timer := { s.timer with enabled := h.getLsbD 0, irqEnable := h.getLsbD 1 }
      response := .nothing } ∧
    exec (.write8 (s.config.timerBase + 0xC#32) b) s = .next { s with
      timer := { s.timer with status := b }, response := .nothing } ∧
    exec (.write16 (s.config.timerBase + 0xC#32) h) s = .next { s with
      timer := { s.timer with status := BitVec.ofNat 8 h.toNat }, response := .nothing } ∧
    ∀ k : Nat, 0 < k → k < 4 →
      exec (.write8 (s.config.timerBase + BitVec.ofNat 32 k) b) s =
        .next { s with response := .nothing } ∧
      exec (.write16 (s.config.timerBase + BitVec.ofNat 32 k) h) s =
        .next { s with response := .nothing } ∧
      exec (.write8 (s.config.timerBase + 0xC#32 + BitVec.ofNat 32 k) b) s =
        .next { s with response := .nothing } ∧
      exec (.write16 (s.config.timerBase + 0xC#32 + BitVec.ofNat 32 k) h) s =
        .next { s with response := .nothing }

/-- Sub-word writes of PENDING (R84, R85, R113; R86 and R180 [derived]): inside the lane the bits set in the data are cleared, and every
pending bit outside the lane is cleared too. -/
def Obligations.SubWordWritesOfPendingClearOutsideTheLane : Prop :=
  ∀ (s : State) (k : Nat) (b : Byte) (h : Half), s.config.WF → k < 4 →
    (∃ p : Word, (∀ j < 32, p.getLsbD j =
        (s.pic.pendingBits.getLsbD j && decide (8 * k ≤ j ∧ j < 8 * k + 8) && !b.getLsbD (j - 8 * k))) ∧
      exec (.write8 (s.config.picBase + 4 + BitVec.ofNat 32 k) b) s =
        .next { s with pic := { s.pic with pendingBits := p }, response := .nothing }) ∧
    ∃ p : Word, (∀ j < 32, p.getLsbD j =
        (s.pic.pendingBits.getLsbD j && decide (8 * k ≤ j ∧ j < 8 * k + 16) && !h.getLsbD (j - 8 * k))) ∧
      exec (.write16 (s.config.picBase + 4 + BitVec.ofNat 32 k) h) s =
        .next { s with pic := { s.pic with pendingBits := p }, response := .nothing }

/-- Sub-word writes of EOI (R84, R85, R114; R86 and R181 [derived]): at lane 0 the low byte of the data is acknowledged, at any other lane
vector 0, whatever the data. -/
def Obligations.SubWordWritesOfEoi : Prop :=
  ∀ (s : State) (b : Byte) (h : Half), s.config.WF →
    (∃ t, exec (.ackIrq (BitVec.ofNat 32 b.toNat)) s = .next t ∧
      exec (.write8 (s.config.picBase + 8) b) s = .next { t with response := .nothing }) ∧
    (∃ t, exec (.ackIrq (BitVec.ofNat 32 (h.toNat % 256))) s = .next t ∧
      exec (.write16 (s.config.picBase + 8) h) s = .next { t with response := .nothing }) ∧
    ∀ k : Nat, 0 < k → k < 4 → ∃ t, exec (.ackIrq 0) s = .next t ∧
      exec (.write8 (s.config.picBase + 8 + BitVec.ofNat 32 k) b) s =
        .next { t with response := .nothing } ∧
      exec (.write16 (s.config.picBase + 8 + BitVec.ofNat 32 k) h) s =
        .next { t with response := .nothing }

/-- Unmapped access safety (R42; at every width, R88 [derived]): outside both windows every read answers 0 and every write changes nothing,
at every width. -/
def Obligations.UnmappedAccessesAreInert : Prop :=
  ∀ (s : State) (a : Word) (b : Byte) (h : Half) (w : Word), s.config.WF →
    (a.toNat < s.config.timerBase.toNat ∨ s.config.timerBase.toNat + 0x100 ≤ a.toNat) →
    (a.toNat < s.config.picBase.toNat ∨ s.config.picBase.toNat + 0x100 ≤ a.toNat) →
    exec (.read8 a) s = .next { s with response := .rdata8 0 } ∧
    exec (.read16 a) s = .next { s with response := .rdata16 0 } ∧
    exec (decodeRead32 s.config a) s = .next { s with response := .rdata32 0 } ∧
    exec (.write8 a b) s = .next { s with response := .nothing } ∧
    exec (.write16 a h) s = .next { s with response := .nothing } ∧
    exec (decodeWrite32 s.config a w) s = .next { s with response := .nothing }

/-- Holes, PRIORITY and misaligned words (R36, R43, R46, R115): at Timer offsets 0x10 to 0xFF and PIC offsets
0x0C to 0xFF every access is inert at every width, and so is a 32-bit access at any address that is not a
multiple of 4. -/
def Obligations.HolesAndMisalignedWordsAreInert : Prop :=
  ∀ (s : State) (a : Word) (b : Byte) (h : Half) (w : Word), s.config.WF →
    (((s.config.timerBase.toNat + 0x10 ≤ a.toNat ∧ a.toNat < s.config.timerBase.toNat + 0x100) ∨
        (s.config.picBase.toNat + 0x0C ≤ a.toNat ∧ a.toNat < s.config.picBase.toNat + 0x100)) →
      exec (.read8 a) s = .next { s with response := .rdata8 0 } ∧
      exec (.read16 a) s = .next { s with response := .rdata16 0 } ∧
      exec (.write8 a b) s = .next { s with response := .nothing } ∧
      exec (.write16 a h) s = .next { s with response := .nothing } ∧
      exec (decodeRead32 s.config a) s = .next { s with response := .rdata32 0 } ∧
      exec (decodeWrite32 s.config a w) s = .next { s with response := .nothing }) ∧
    (a.toNat % 4 ≠ 0 →
      exec (decodeRead32 s.config a) s = .next { s with response := .rdata32 0 } ∧
      exec (decodeWrite32 s.config a w) s = .next { s with response := .nothing })

/-- The bytes a WRITE32 stores (R45, R81, R96, R97, R112): after a word is stored in PERIOD, COUNT or MASK, a
byte read inside the register's four bytes gives that byte of the word, and a byte read anywhere else
gives what it gave before. -/
def Obligations.Write32StoresFourBytes : Prop :=
  ∀ (s : State) (w x : Word), s.config.WF →
    let stores (i : Instr) (r : Reg) : Prop := ∃ t, exec i s = .next t ∧
      (∀ k < 4, x.toNat = (regAddr s.config r).toNat + k →
        (byteAt t x).toNat = w.toNat / 256 ^ k % 256) ∧
      ((∀ k < 4, x.toNat ≠ (regAddr s.config r).toNat + k) → byteAt t x = byteAt s x)
    stores (.write32TimerPeriod w) (.timer .period) ∧
    stores (.write32TimerCount w) (.timer .count) ∧
    stores (.write32PicMask w) (.pic .mask)

/-- Reads and queries change no state (R50, R69, R108, R129, R136): only the response port. -/
def Obligations.QueriesChangeNoState : Prop :=
  ∀ (i : Instr) (s : State), isQuery i = true → ∃ r, exec i s = .next { s with response := r }

/-! The system operations and reset. -/

/-- GET_GLOBAL_CYCLES (R136): it answers the Clock and changes nothing; the Clock is 0 after reset, one more
after a TICK, 0 after INIT_DEFAULT, and unchanged by any other operation. -/
def Obligations.GlobalCyclesCountTicks : Prop :=
  State.reset.cycles = 0 ∧
  ∀ s : State,
    exec .getGlobalCycles s = .next { s with response := .cycles s.cycles } ∧
    (∃ t, exec .tick s = .next t ∧ t.cycles = s.cycles + 1) ∧
    (∃ t, exec .initDefault s = .next t ∧ t.cycles = 0) ∧
    ∀ i : Instr, i ≠ .tick → i ≠ .initDefault → ∃ t, exec i s = .next t ∧ t.cycles = s.cycles

/-- INIT_DEFAULT (R39, R137): every element of R10 at 0, from any state, and twice is once; the parameters
stay. -/
def Obligations.InitDefaultZeroesEveryElement : Prop :=
  ∀ s : State, ∃ t, exec .initDefault s = .next t ∧ exec .initDefault t = .next t ∧
    t = { s with
      cycles := 0
      timer := { enabled := false, irqEnable := false, period := 0, count := 0, status := 0
                 eventsGenerated := 0 }
      pic := { maskBits := 0, pendingBits := 0, lec := Vector.replicate 32 0 }
      metrics := { n := Vector.replicate 32 0, mean := Vector.replicate 32 0
                   m2 := Vector.replicate 32 0 }
      response := .nothing }

/-- After reset (R39): every element is 0, all registers read 0, no vector is presented, the Clock answers 0
and the statistics of every vector are (0, 0.0, 0.0). -/
def Obligations.ResetStateAnswersZero : Prop :=
  (State.reset.cycles = 0 ∧
    State.reset.timer = { enabled := false, irqEnable := false, period := 0, count := 0, status := 0
                          eventsGenerated := 0 } ∧
    State.reset.pic = { maskBits := 0, pendingBits := 0, lec := Vector.replicate 32 0 } ∧
    State.reset.metrics = { n := Vector.replicate 32 0, mean := Vector.replicate 32 0
                            m2 := Vector.replicate 32 0 }) ∧
  (∀ r : Reg, readReg State.reset r = 0) ∧
  exec .irqPending State.reset = .next { State.reset with response := .irq false 0 } ∧
  exec .getGlobalCycles State.reset = .next { State.reset with response := .cycles 0 } ∧
  ∀ v : VectorIx, exec (.getIrqStats (BitVec.ofNat 32 v)) State.reset =
    .next { State.reset with response := .stats 0 0 0 }

/-- Reserved operation codes (R69): the command completes, changes no state and returns no response. -/
def Obligations.ReservedCodesAreInert : Prop :=
  (∀ s : State, exec .reservedD s = .next { s with response := .nothing } ∧
    exec .reservedE s = .next { s with response := .nothing } ∧
    exec .reservedF s = .next { s with response := .nothing }) ∧
  ∀ (s : State) (rest : List Input) (op : BitVec 4) (a d : Word), 13 ≤ op.toNat →
    s.inputs = .command (command op a d) :: rest →
    step s = .next { s with inputs := rest, response := .nothing }

/-! Rules about the whole machine. -/

/-- The status byte (R17, R37): the block clears no bit of it; only a write to STATUS or a reset can. -/
def Obligations.StatusIsClearedOnlyByStatusWrites : Prop :=
  ∀ (i : Instr) (s : State), i ≠ .initDefault → (∀ w, i ≠ .write32TimerStatus w) →
    (∀ a b, i = .write8 a b → regAt s.config (containingWord a) ≠ some (.timer .status)) →
    (∀ a h, i = .write16 a h → regAt s.config (containingWord a) ≠ some (.timer .status)) →
    ∃ t, exec i s = .next t ∧ ∀ j < 8, s.timer.status.getLsbD j = true → t.timer.status.getLsbD j = true

/-- Where requests come from (R21, R138, R147): a pending bit is set only by SIGNAL of that vector or, for
vector 0, by a TICK that fires with `irq_enable` set. -/
def Obligations.OnlySignalAndFireRaiseRequests : Prop :=
  ∀ (i : Instr) (s t : State) (v : VectorIx), exec i s = .next t →
    s.pic.pendingBits.getLsbD v = false → t.pic.pendingBits.getLsbD v = true →
    i = .signal (BitVec.ofNat 32 v) ∨
      (i = .tick ∧ v = 0 ∧ s.timer.enabled = true ∧ s.timer.irqEnable = true ∧
        s.timer.period ≠ 0 ∧ s.timer.count = 0)

/-- The mask (R20, R105, R109, R112): it is changed only by a write to MASK or a reset. -/
def Obligations.OnlyMaskWritesChangeTheMask : Prop :=
  ∀ (i : Instr) (s : State), i ≠ .initDefault → (∀ w, i ≠ .write32PicMask w) →
    (∀ a b, i = .write8 a b → regAt s.config (containingWord a) ≠ some (.pic .mask)) →
    (∀ a h, i = .write16 a h → regAt s.config (containingWord a) ≠ some (.pic .mask)) →
    ∃ t, exec i s = .next t ∧ t.pic.maskBits = s.pic.maskBits

/-- Only IRQ_PENDING consults the mask, and MASK reads (R105, R107, R109): any other operation on two states
that differ only in the mask gives the same response and the same state but for the mask. -/
def Obligations.TheMaskHidesAndNothingElse : Prop :=
  ∀ (i : Instr) (s : State) (m : Word), i ≠ .irqPending → i ≠ .read32PicMask →
    (∀ a, i = .read8 a → regAt s.config (containingWord a) ≠ some (.pic .mask)) →
    (∀ a, i = .read16 a → regAt s.config (containingWord a) ≠ some (.pic .mask)) →
    ∃ t m', exec i s = .next t ∧
      exec i { s with pic := { s.pic with maskBits := m } } =
        .next { t with pic := { t.pic with maskBits := m' } }

/-- `T.events_generated` is returned by nothing (R18, R38, R138): two states that differ only in it answer
every operation alike and go on differing in nothing else. -/
def Obligations.EventCountIsUnobservable : Prop :=
  ∀ (i : Instr) (s : State) (e : DWord), ∃ t e',
    exec i s = .next t ∧
    exec i { s with timer := { s.timer with eventsGenerated := e } } =
      .next { t with timer := { t.timer with eventsGenerated := e' } }

/-- Counters stay behind the Clock (R18 [derived], R23): `T.events_generated <= cycles` and no recorded firing cycle
lies in the future; every step keeps it, as long as `cycles` does not wrap. -/
def Obligations.EveryStepKeepsTheClockBounds : Prop :=
  ∀ s t : State, ClockBounds s → s.cycles.toNat + 1 < 2 ^ 64 → step s = .next t → ClockBounds t

/-- The Clock bounds hold after reset (R39). -/
def Obligations.ResetMeetsTheClockBounds : Prop := ClockBounds State.reset

/-- The source's public contract alone (R106, R147): while the host presents no SIGNAL, vectors 1 to 31 stay
unraised, unrecorded and unsampled. -/
def Obligations.EveryStepKeepsThePublicContract : Prop :=
  ∀ s t : State, PublicContract s → step s = .next t → PublicContract t

/-- The public contract holds after reset (R39). -/
def Obligations.ResetMeetsThePublicContract : Prop := PublicContract State.reset

/-- When a result is finite in the binary64 instance (R127; IEEE 754's overflow is PRESUMED, log 6): each
operation on finite operands, the divisor not 0, has a finite result exactly when the magnitude of the
exact result is below the overflow threshold. -/
def Obligations.FiniteExactlyBelowTheOverflowThreshold : Prop :=
  ∀ a b : Number, Binary64.isFinite a = true → Binary64.isFinite b = true →
    (Binary64.isFinite (Binary64.add a b) = true ↔
      |Binary64.toRat a + Binary64.toRat b| < overflowThreshold) ∧
    (Binary64.isFinite (Binary64.sub a b) = true ↔
      |Binary64.toRat a - Binary64.toRat b| < overflowThreshold) ∧
    (Binary64.isFinite (Binary64.mul a b) = true ↔
      |Binary64.toRat a * Binary64.toRat b| < overflowThreshold) ∧
    (Binary64.toRat b ≠ 0 → (Binary64.isFinite (Binary64.div a b) = true ↔
      |Binary64.toRat a / Binary64.toRat b| < overflowThreshold))
end

