-- ==== Sys2Proof/Laws/Command.lean ====
section
/-! SUPPORT. The fields of a command word (R60): each is read back as it was put in, and the three
fields together are the word. -/

namespace Sys2Proof

/-- A bit of a command word, by the field it lies in (R60). -/
theorem command_getLsbD (op : BitVec 4) (a d : Word) (i : Nat) :
    (command op a d).getLsbD i =
      if i < 32 then d.getLsbD i else if i < 64 then a.getLsbD (i - 32) else op.getLsbD (i - 64) := by
  have h : (command op a d).getLsbD i = (op ++ a ++ d : BitVec (4 + 32 + 32)).getLsbD i := rfl
  rw [h, BitVec.getLsbD_append, BitVec.getLsbD_append]
  have : i - 32 - 32 = i - 64 := by omega
  rcases Nat.lt_or_ge i 32 with h1 | h1
  · simp [h1]
  · rcases Nat.lt_or_ge i 64 with h2 | h2
    · have : i - 32 < 32 := by omega
      simp [Nat.not_lt.mpr h1, h2, this]
    · have : ¬ i - 32 < 32 := by omega
      simp [Nat.not_lt.mpr h1, Nat.not_lt.mpr h2, *]

@[simp] theorem command_op (op : BitVec 4) (a d : Word) : Command.op (command op a d) = op := by
  apply BitVec.eq_of_getLsbD_eq
  intro i hi
  simp only [Command.op, BitVec.getLsbD_extractLsb', command_getLsbD, hi, decide_true, Bool.true_and]
  rw [if_neg (by omega), if_neg (by omega)]
  congr 1
  omega

@[simp] theorem command_a (op : BitVec 4) (a d : Word) : Command.a (command op a d) = a := by
  apply BitVec.eq_of_getLsbD_eq
  intro i hi
  simp only [Command.a, BitVec.getLsbD_extractLsb', command_getLsbD, hi, decide_true, Bool.true_and]
  rw [if_neg (by omega), if_pos (by omega)]
  congr 1
  omega

@[simp] theorem command_d (op : BitVec 4) (a d : Word) : Command.d (command op a d) = d := by
  apply BitVec.eq_of_getLsbD_eq
  intro i hi
  simp only [Command.d, BitVec.getLsbD_extractLsb', command_getLsbD, hi, decide_true, Bool.true_and]
  rw [if_pos (by omega)]
  congr 1
  omega

/-- A command word is its three fields (R60). -/
theorem command_fields (c : Command) : command (Command.op c) (Command.a c) (Command.d c) = c := by
  apply BitVec.eq_of_getLsbD_eq
  intro i hi
  rw [command_getLsbD]
  split
  · rename_i h
    simp [Command.d, h]
  · split
    · have h1 : i - 32 < 32 := by omega
      have h2 : 32 + (i - 32) = i := by omega
      simp [Command.a, h1, h2]
    · have h1 : i - 64 < 4 := by omega
      have h2 : 64 + (i - 64) = i := by omega
      simp [Command.op, h1, h2]

/-- The decoder on a word put together from its fields. -/
@[simp] theorem decode_command (cfg : Config) (op : BitVec 4) (a d : Word) :
    decode cfg (command op a d) = decodeOp cfg op a d := by
  simp [decode]

end Sys2Proof
end

