-- ==== Sys2Proof/Laws/State.lean ====
section
/-! SUPPORT. One lemma per field per update of the state, so that no proof unfolds an update. -/

namespace Sys2Proof.Machine

@[simp] theorem State.respond_cycles (s : State) (r : Response) : (s.respond r).cycles = s.cycles := rfl
@[simp] theorem State.respond_timer (s : State) (r : Response) : (s.respond r).timer = s.timer := rfl
@[simp] theorem State.respond_pic (s : State) (r : Response) : (s.respond r).pic = s.pic := rfl
@[simp] theorem State.respond_metrics (s : State) (r : Response) : (s.respond r).metrics = s.metrics := rfl
@[simp] theorem State.respond_config (s : State) (r : Response) : (s.respond r).config = s.config := rfl
@[simp] theorem State.respond_inputs (s : State) (r : Response) : (s.respond r).inputs = s.inputs := rfl
@[simp] theorem State.respond_response (s : State) (r : Response) : (s.respond r).response = r := rfl

@[simp] theorem State.setTimer_cycles (s : State) (t : Timer) : (s.setTimer t).cycles = s.cycles := rfl
@[simp] theorem State.setTimer_timer (s : State) (t : Timer) : (s.setTimer t).timer = t := rfl
@[simp] theorem State.setTimer_pic (s : State) (t : Timer) : (s.setTimer t).pic = s.pic := rfl
@[simp] theorem State.setTimer_metrics (s : State) (t : Timer) : (s.setTimer t).metrics = s.metrics := rfl
@[simp] theorem State.setTimer_config (s : State) (t : Timer) : (s.setTimer t).config = s.config := rfl
@[simp] theorem State.setTimer_inputs (s : State) (t : Timer) : (s.setTimer t).inputs = s.inputs := rfl
@[simp] theorem State.setTimer_response (s : State) (t : Timer) : (s.setTimer t).response = s.response := rfl

@[simp] theorem State.setPic_cycles (s : State) (p : Pic) : (s.setPic p).cycles = s.cycles := rfl
@[simp] theorem State.setPic_timer (s : State) (p : Pic) : (s.setPic p).timer = s.timer := rfl
@[simp] theorem State.setPic_pic (s : State) (p : Pic) : (s.setPic p).pic = p := rfl
@[simp] theorem State.setPic_metrics (s : State) (p : Pic) : (s.setPic p).metrics = s.metrics := rfl
@[simp] theorem State.setPic_config (s : State) (p : Pic) : (s.setPic p).config = s.config := rfl
@[simp] theorem State.setPic_inputs (s : State) (p : Pic) : (s.setPic p).inputs = s.inputs := rfl
@[simp] theorem State.setPic_response (s : State) (p : Pic) : (s.setPic p).response = s.response := rfl

@[simp] theorem State.setMetrics_cycles (s : State) (m : Metrics) : (s.setMetrics m).cycles = s.cycles := rfl
@[simp] theorem State.setMetrics_timer (s : State) (m : Metrics) : (s.setMetrics m).timer = s.timer := rfl
@[simp] theorem State.setMetrics_pic (s : State) (m : Metrics) : (s.setMetrics m).pic = s.pic := rfl
@[simp] theorem State.setMetrics_metrics (s : State) (m : Metrics) : (s.setMetrics m).metrics = m := rfl
@[simp] theorem State.setMetrics_config (s : State) (m : Metrics) : (s.setMetrics m).config = s.config := rfl
@[simp] theorem State.setMetrics_inputs (s : State) (m : Metrics) : (s.setMetrics m).inputs = s.inputs := rfl
@[simp] theorem State.setMetrics_response (s : State) (m : Metrics) : (s.setMetrics m).response = s.response := rfl

@[simp] theorem State.setCycles_cycles (s : State) (c : DWord) : (s.setCycles c).cycles = c := rfl
@[simp] theorem State.setCycles_timer (s : State) (c : DWord) : (s.setCycles c).timer = s.timer := rfl
@[simp] theorem State.setCycles_pic (s : State) (c : DWord) : (s.setCycles c).pic = s.pic := rfl
@[simp] theorem State.setCycles_metrics (s : State) (c : DWord) : (s.setCycles c).metrics = s.metrics := rfl
@[simp] theorem State.setCycles_config (s : State) (c : DWord) : (s.setCycles c).config = s.config := rfl
@[simp] theorem State.setCycles_inputs (s : State) (c : DWord) : (s.setCycles c).inputs = s.inputs := rfl
@[simp] theorem State.setCycles_response (s : State) (c : DWord) : (s.setCycles c).response = s.response := rfl

@[simp] theorem State.setInputs_cycles (s : State) (l : List Input) : (s.setInputs l).cycles = s.cycles := rfl
@[simp] theorem State.setInputs_timer (s : State) (l : List Input) : (s.setInputs l).timer = s.timer := rfl
@[simp] theorem State.setInputs_pic (s : State) (l : List Input) : (s.setInputs l).pic = s.pic := rfl
@[simp] theorem State.setInputs_metrics (s : State) (l : List Input) : (s.setInputs l).metrics = s.metrics := rfl
@[simp] theorem State.setInputs_config (s : State) (l : List Input) : (s.setInputs l).config = s.config := rfl
@[simp] theorem State.setInputs_inputs (s : State) (l : List Input) : (s.setInputs l).inputs = l := rfl
@[simp] theorem State.setInputs_response (s : State) (l : List Input) : (s.setInputs l).response = s.response := rfl

@[simp] theorem initBlock_cycles (s : State) : (initBlock s).cycles = 0 := rfl
@[simp] theorem initBlock_timer (s : State) : (initBlock s).timer = Timer.reset := rfl
@[simp] theorem initBlock_pic (s : State) : (initBlock s).pic = Pic.reset := rfl
@[simp] theorem initBlock_metrics (s : State) : (initBlock s).metrics = Metrics.reset := rfl
@[simp] theorem initBlock_config (s : State) : (initBlock s).config = s.config := rfl
@[simp] theorem initBlock_inputs (s : State) : (initBlock s).inputs = s.inputs := rfl
@[simp] theorem initBlock_response (s : State) : (initBlock s).response = s.response := rfl

end Sys2Proof.Machine
end

