-- ==== Sys2Proof/Laws/Ops.lean ====
section
/-! SUPPORT. One lemma per shared operation saying what it can do, cited instead of unfolding it. -/

namespace Sys2Proof.Machine

/-! Vector operands (R66). -/

/-- A vector operand names vector `v` exactly when it is that number. -/
theorem vectorInRange_eq_some (x : Int) (v : VectorIx) : vectorInRange x = some v ↔ x = (v.val : Int) := by
  unfold vectorInRange
  split
  · simp only [Option.some.injEq, Fin.ext_iff]
    omega
  · have := v.isLt
    simp only [reduceCtorEq, false_iff]
    omega

/-- A vector operand names no vector exactly when it is negative or at least `NVEC`. -/
theorem vectorInRange_eq_none (x : Int) : vectorInRange x = none ↔ x < 0 ∨ 32 ≤ x := by
  unfold vectorInRange
  split
  · simp only [reduceCtorEq, false_iff]
    omega
  · simp only [true_iff]
    omega

@[simp] theorem vectorInRange_val (v : VectorIx) : vectorInRange (v.val : Int) = some v :=
  (vectorInRange_eq_some _ v).mpr rfl

@[simp] theorem vectorInRange_zero : vectorInRange 0 = some 0 := vectorInRange_val 0

/-! Pending flags (R37). -/

/-- The word of vector `v` has bit `v` and no other. -/
theorem vectorBit_getLsbD (v : VectorIx) (i : Nat) : (vectorBit v).getLsbD i = decide (i = v.val) := by
  have := v.isLt
  by_cases h : i = v.val
  · subst h
    simp [vectorBit, this]
  · rcases Nat.lt_trichotomy i v.val with h1 | h1 | h1
    · simp [vectorBit, BitVec.getLsbD_shiftLeft, h1, h]
    · exact absurd h1 h
    · simp only [vectorBit, BitVec.getLsbD_shiftLeft, BitVec.getLsbD_one, h, decide_false]
      have : ¬ i - v.val = 0 := by omega
      simp [this]

@[simp] theorem setPending_getLsbD (bits : Word) (v : VectorIx) (i : Nat) :
    (setPending bits v).getLsbD i = (bits.getLsbD i || decide (i = v.val)) := by
  simp [setPending, vectorBit_getLsbD]

theorem clearPending_getLsbD (bits : Word) (v : VectorIx) (i : Nat) (hi : i < 32) :
    (clearPending bits v).getLsbD i = (bits.getLsbD i && !decide (i = v.val)) := by
  simp only [clearPending, BitVec.getLsbD_and, BitVec.getLsbD_not, vectorBit_getLsbD, hi, decide_true,
    Bool.true_and]

theorem writeOneToClear_getLsbD (bits w : Word) (i : Nat) (hi : i < 32) :
    (writeOneToClear bits w).getLsbD i = (bits.getLsbD i && !w.getLsbD i) := by
  simp [writeOneToClear, hi]

/-- Setting the fired flag sets bit 0 and keeps bits 7:1 (R92). -/
theorem setFired_getLsbD (status : Byte) (i : Nat) :
    (setFired status).getLsbD i = (status.getLsbD i || decide (i = 0)) := by
  rcases Nat.eq_zero_or_pos i with h | h
  · simp [setFired, h]
  · have h0 : i ≠ 0 := by omega
    have : (0x01#8).getLsbD i = false := by
      rw [show (0x01#8) = 1#8 from rfl, BitVec.getLsbD_one]
      simp [h0]
    simp [setFired, this, h0]

/-! `Resolve` (R107). -/

/-- The lowest set bit is `v` exactly when bit `v` is set and no lower bit is. -/
theorem lowestSet_eq_some (e : Word) (v : VectorIx) :
    lowestSet e = some v ↔ e.getLsbD v = true ∧ ∀ w : VectorIx, w < v → e.getLsbD w = false := by
  unfold lowestSet
  rw [List.find?_eq_some_iff_getElem]
  simp only [List.length_finRange, List.getElem_finRange]
  constructor
  · rintro ⟨hv, i, hi, hiv, hlt⟩
    refine ⟨hv, fun w hw => ?_⟩
    have : (i : Nat) = v.val := by simpa [Fin.ext_iff] using hiv
    have := hlt w.val (by rw [this]; exact hw)
    simpa using this
  · rintro ⟨hv, hlt⟩
    refine ⟨hv, v.val, v.isLt, by simp, fun j hj => ?_⟩
    have := hlt ⟨j, by omega⟩ (by simpa [Fin.lt_def] using hj)
    simpa using this

/-- There is no lowest set bit exactly when no bit is set. -/
theorem lowestSet_eq_none (e : Word) : lowestSet e = none ↔ ∀ v : VectorIx, e.getLsbD v = false := by
  simp [lowestSet, List.find?_eq_none]

/-! `Signal` (R105). -/

/-- What `Signal` does: nothing out of range, else the pending flag and the firing cycle. -/
theorem signal_cases (vec : Int) (s : State) :
    (vectorInRange vec = none ∧ signal vec s = s) ∨
      ∃ v, vectorInRange vec = some v ∧
        signal vec s = { s with pic := { s.pic with
          pendingBits := setPending s.pic.pendingBits v
          lec := s.pic.lec.set v s.cycles } } := by
  unfold signal
  cases h : vectorInRange vec with
  | none => exact .inl ⟨rfl, rfl⟩
  | some v => exact .inr ⟨v, rfl, rfl⟩

@[simp] theorem signal_cycles (vec : Int) (s : State) : (signal vec s).cycles = s.cycles := by
  unfold signal; split <;> rfl
@[simp] theorem signal_timer (vec : Int) (s : State) : (signal vec s).timer = s.timer := by
  unfold signal; split <;> rfl
@[simp] theorem signal_metrics (vec : Int) (s : State) : (signal vec s).metrics = s.metrics := by
  unfold signal; split <;> rfl
@[simp] theorem signal_config (vec : Int) (s : State) : (signal vec s).config = s.config := by
  unfold signal; split <;> rfl
@[simp] theorem signal_inputs (vec : Int) (s : State) : (signal vec s).inputs = s.inputs := by
  unfold signal; split <;> rfl
@[simp] theorem signal_response (vec : Int) (s : State) : (signal vec s).response = s.response := by
  unfold signal; split <;> rfl
@[simp] theorem signal_maskBits (vec : Int) (s : State) :
    (signal vec s).pic.maskBits = s.pic.maskBits := by
  unfold signal; split <;> rfl

/-! The statistics (R125). -/

theorem statsUpdate_n (m : Metrics) (v w : VectorIx) (x : DWord) :
    (statsUpdate m v x).n[w] = if v = w then m.n[v] + 1 else m.n[w] := by
  simp [statsUpdate, setEntry, foldSample, entry, Vector.getElem_set, Fin.ext_iff]

/-- The entry of a vector after an update: the sample folded for that vector, the others as before. -/
theorem entry_statsUpdate (m : Metrics) (v w : VectorIx) (x : DWord) :
    entry (statsUpdate m v x) w =
      if v = w then foldSample binary64Ops (entry m v) x else entry m w := by
  by_cases h : v = w
  · subst h
    simp [statsUpdate, setEntry, entry]
  · have : v.val ≠ w.val := fun e => h (Fin.ext e)
    simp [statsUpdate, setEntry, entry, h, this]

/-! `Acknowledge` (R109, R110). -/

/-- What `Acknowledge` does for a vector in range: the request dropped; with a firing cycle recorded,
the sample folded and the firing cycle consumed as well. -/
theorem acknowledgeVector_cases (v : VectorIx) (s : State) :
    (s.pic.lec[v] = 0 ∧ acknowledgeVector v s = s.setPic (dropRequest s.pic v)) ∨
      (s.pic.lec[v] ≠ 0 ∧ acknowledgeVector v s =
        { s with
          pic := { s.pic with
            pendingBits := clearPending s.pic.pendingBits v
            lec := s.pic.lec.set v 0 }
          metrics := statsUpdate s.metrics v (s.cycles - s.pic.lec[v]) }) := by
  by_cases h : s.pic.lec[v] = 0
  · exact .inl ⟨h, by simp [acknowledgeVector, h]⟩
  · exact .inr ⟨h, by rw [acknowledgeVector, if_neg h]; rfl⟩

@[simp] theorem acknowledgeVector_cycles (v : VectorIx) (s : State) :
    (acknowledgeVector v s).cycles = s.cycles := by
  unfold acknowledgeVector; split <;> rfl
@[simp] theorem acknowledgeVector_timer (v : VectorIx) (s : State) :
    (acknowledgeVector v s).timer = s.timer := by
  unfold acknowledgeVector; split <;> rfl
@[simp] theorem acknowledgeVector_config (v : VectorIx) (s : State) :
    (acknowledgeVector v s).config = s.config := by
  unfold acknowledgeVector; split <;> rfl
@[simp] theorem acknowledgeVector_inputs (v : VectorIx) (s : State) :
    (acknowledgeVector v s).inputs = s.inputs := by
  unfold acknowledgeVector; split <;> rfl
@[simp] theorem acknowledgeVector_response (v : VectorIx) (s : State) :
    (acknowledgeVector v s).response = s.response := by
  unfold acknowledgeVector; split <;> rfl
@[simp] theorem acknowledgeVector_maskBits (v : VectorIx) (s : State) :
    (acknowledgeVector v s).pic.maskBits = s.pic.maskBits := by
  unfold acknowledgeVector; split <;> rfl

/-- An acknowledgment leaves no firing cycle recorded for its vector (R110). -/
theorem acknowledgeVector_lec_self (v : VectorIx) (s : State) :
    (acknowledgeVector v s).pic.lec[v] = 0 := by
  rcases acknowledgeVector_cases v s with ⟨h, e⟩ | ⟨-, e⟩
  · rw [e]; exact h
  · rw [e]; simp

/-- Acknowledging no vector is doing nothing; acknowledging one is `acknowledgeVector`. -/
theorem acknowledge_cases (vec : Int) (s : State) :
    (vectorInRange vec = none ∧ acknowledge vec s = s) ∨
      ∃ v, vectorInRange vec = some v ∧ acknowledge vec s = acknowledgeVector v s := by
  unfold acknowledge
  cases h : vectorInRange vec with
  | none => exact .inl ⟨rfl, rfl⟩
  | some v => exact .inr ⟨v, rfl, rfl⟩

/-! The timer (R90 to R93). -/

/-- `Fire()` as one record (R92). -/
theorem fire_eq (s : State) :
    fire s = { s with
      timer := { s.timer with
        eventsGenerated := s.timer.eventsGenerated + 1
        status := setFired s.timer.status
        count := s.timer.period }
      pic := if s.timer.irqEnable then { s.pic with
          pendingBits := setPending s.pic.pendingBits 0
          lec := s.pic.lec.set 0 s.cycles }
        else s.pic } := by
  unfold fire
  cases h : s.timer.irqEnable <;> simp [h, signal, State.setTimer, State.setPic]

/-- The timer takes exactly one of its three arms (R90). -/
theorem timerTick_cases (s : State) :
    ((s.timer.enabled = false ∨ s.timer.period = 0) ∧ timerTick s = s) ∨
    (s.timer.enabled = true ∧ s.timer.period ≠ 0 ∧ s.timer.count = 0 ∧ timerTick s = fire s) ∨
    (s.timer.enabled = true ∧ s.timer.period ≠ 0 ∧ s.timer.count ≠ 0 ∧
      timerTick s = s.setTimer { s.timer with count := s.timer.count - 1 }) := by
  unfold timerTick
  by_cases h : s.timer.enabled = false ∨ s.timer.period = 0
  · exact .inl ⟨h, if_pos h⟩
  · have h' := not_or.mp h
    have he : s.timer.enabled = true := by simpa using h'.1
    by_cases hc : s.timer.count = 0
    · exact .inr (.inl ⟨he, h'.2, hc, by rw [if_neg h, if_pos hc]⟩)
    · exact .inr (.inr ⟨he, h'.2, hc, by rw [if_neg h, if_neg hc]⟩)

/-! The address map (R41). -/

theorem inWindow_iff (base addr : Word) :
    inWindow base addr = true ↔ base.toNat ≤ addr.toNat ∧ addr.toNat < base.toNat + 0x100 := by
  simp only [inWindow, Bool.and_eq_true, decide_eq_true_eq]
  rfl

theorem windowOffset_toNat {base addr : Word} (h : inWindow base addr = true) :
    (windowOffset base addr).toNat = addr.toNat - base.toNat := by
  have := (inWindow_iff base addr).mp h
  simp only [windowOffset, BitVec.toNat_ofNat]
  omega

theorem windowAddr_toNat {base : Word} (h : base.toNat + 0x100 ≤ 2 ^ 32) (off : Byte) :
    (windowAddr base off).toNat = base.toNat + off.toNat := by
  have := off.isLt
  simp only [windowAddr, BitVec.toNat_add, BitVec.toNat_setWidth]
  omega

/-- An address made of a base and an offset lies in that window, at that offset. -/
theorem windowAddr_inWindow {base : Word} (h : base.toNat + 0x100 ≤ 2 ^ 32) (off : Byte) :
    inWindow base (windowAddr base off) = true ∧ windowOffset base (windowAddr base off) = off := by
  have hn := windowAddr_toNat h off
  have hl := off.isLt
  have hw : inWindow base (windowAddr base off) = true := by
    rw [inWindow_iff, hn]
    omega
  refine ⟨hw, BitVec.eq_of_toNat_eq ?_⟩
  rw [windowOffset_toNat hw, hn]
  omega

/-- The Timer window decodes to its offsets (R41). -/
theorem decodeAddr_timer {cfg : Config} (h : cfg.WF) (off : Byte) :
    decodeAddr cfg (windowAddr cfg.timerBase off) = .timer off := by
  have hw := windowAddr_inWindow (base := cfg.timerBase) h.2.2.2.1 off
  simp [decodeAddr, hw.1, hw.2]

/-- The PIC window decodes to its offsets (R41). -/
theorem decodeAddr_pic {cfg : Config} (h : cfg.WF) (off : Byte) :
    decodeAddr cfg (windowAddr cfg.picBase off) = .pic off := by
  have hw := windowAddr_inWindow (base := cfg.picBase) h.2.2.2.2 off
  have hn := windowAddr_toNat (base := cfg.picBase) h.2.2.2.2 off
  have hl := off.isLt
  have ht : inWindow cfg.timerBase (windowAddr cfg.picBase off) = false := by
    rw [Bool.eq_false_iff, ne_eq, inWindow_iff, hn]
    have := h.2.2.1
    simp only [Config.windowSize] at this
    omega
  simp [decodeAddr, ht, hw.1, hw.2]

@[simp] theorem timerReg_timerOffset (r : TimerReg) : timerReg (timerOffset r) = some r := by
  cases r <;> decide

@[simp] theorem picReg_picOffset (r : PicReg) : picReg (picOffset r) = some r := by
  cases r <;> decide

/-- A register is found at its own address (R28, R41). -/
theorem regAt_regAddr {cfg : Config} (h : cfg.WF) (r : Reg) : regAt cfg (regAddr cfg r) = some r := by
  cases r with
  | timer r => simp [regAt, regAddr, decodeAddr_timer h]
  | pic r => simp [regAt, regAddr, decodeAddr_pic h]

/-- A 32-bit read at a register's address reads that register (R80). -/
theorem regRead32_regAddr {s : State} (h : s.config.WF) (r : Reg) :
    regRead32 s (regAddr s.config r) = readReg s r := by
  simp [regRead32, regAt_regAddr h]

/-- A 32-bit write at a register's address writes that register (R81). -/
theorem regWrite32_regAddr {s : State} (h : s.config.WF) (r : Reg) (w : Word) :
    regWrite32 s (regAddr s.config r) w = writeReg s r w := by
  simp [regWrite32, regAt_regAddr h]

/-! The host's presentations (R53). -/

@[simp] theorem nextInput_nil {s : State} (h : s.inputs = []) : nextInput s = none := by
  simp [nextInput, h]

@[simp] theorem nextInput_cons {s : State} {i : Input} {rest : List Input} (h : s.inputs = i :: rest) :
    nextInput s = some (i, s.setInputs rest) := by
  simp [nextInput, h]

end Sys2Proof.Machine
end

