-- ==== Sys2Proof/Laws/PerInstr.lean ====
section
/-! SUPPORT. The family OperationCode: the operation code that the encoder writes for each constructor
is the one of rule R61's table. -/

namespace Sys2Proof

namespace Laws.OperationCode

/-- The code field of the instruction's word is the instruction's operation code (R61). -/
def Statement (i : Instr) : Prop := ∀ cfg : Config, Command.op (encode cfg i) = i.opcode

theorem tick : Statement (.tick) := fun _ => command_op _ _ _
theorem irqPending : Statement (.irqPending) := fun _ => command_op _ _ _
theorem ackIrq (vec : Word) : Statement (.ackIrq vec) := fun _ => command_op _ _ _
theorem read8 (addr : Word) : Statement (.read8 addr) := fun _ => command_op _ _ _
theorem read16 (addr : Word) : Statement (.read16 addr) := fun _ => command_op _ _ _
theorem read32TimerCtrl : Statement (.read32TimerCtrl) := fun _ => command_op _ _ _
theorem read32TimerPeriod : Statement (.read32TimerPeriod) := fun _ => command_op _ _ _
theorem read32TimerCount : Statement (.read32TimerCount) := fun _ => command_op _ _ _
theorem read32TimerStatus : Statement (.read32TimerStatus) := fun _ => command_op _ _ _
theorem read32PicMask : Statement (.read32PicMask) := fun _ => command_op _ _ _
theorem read32PicPending : Statement (.read32PicPending) := fun _ => command_op _ _ _
theorem read32PicEoi : Statement (.read32PicEoi) := fun _ => command_op _ _ _
theorem read32PicPriority : Statement (.read32PicPriority) := fun _ => command_op _ _ _
theorem read32TimerHole (off : Byte) : Statement (.read32TimerHole off) := fun _ => command_op _ _ _
theorem read32PicHole (off : Byte) : Statement (.read32PicHole off) := fun _ => command_op _ _ _
theorem read32Unmapped (addr : Word) : Statement (.read32Unmapped addr) := fun _ => command_op _ _ _
theorem write8 (addr : Word) (data : Byte) : Statement (.write8 addr data) := fun _ => command_op _ _ _
theorem write16 (addr : Word) (data : Half) : Statement (.write16 addr data) := fun _ => command_op _ _ _
theorem write32TimerCtrl (word : Word) : Statement (.write32TimerCtrl word) := fun _ => command_op _ _ _
theorem write32TimerPeriod (word : Word) : Statement (.write32TimerPeriod word) := fun _ => command_op _ _ _
theorem write32TimerCount (word : Word) : Statement (.write32TimerCount word) := fun _ => command_op _ _ _
theorem write32TimerStatus (word : Word) : Statement (.write32TimerStatus word) := fun _ => command_op _ _ _
theorem write32PicMask (word : Word) : Statement (.write32PicMask word) := fun _ => command_op _ _ _
theorem write32PicPending (word : Word) : Statement (.write32PicPending word) := fun _ => command_op _ _ _
theorem write32PicEoi (word : Word) : Statement (.write32PicEoi word) := fun _ => command_op _ _ _
theorem write32PicPriority (word : Word) : Statement (.write32PicPriority word) := fun _ => command_op _ _ _
theorem write32TimerHole (off : Byte) (word : Word) : Statement (.write32TimerHole off word) := fun _ => command_op _ _ _
theorem write32PicHole (off : Byte) (word : Word) : Statement (.write32PicHole off word) := fun _ => command_op _ _ _
theorem write32Unmapped (addr : Word) (word : Word) : Statement (.write32Unmapped addr word) := fun _ => command_op _ _ _
theorem getIrqStats (vec : Word) : Statement (.getIrqStats vec) := fun _ => command_op _ _ _
theorem getGlobalCycles : Statement (.getGlobalCycles) := fun _ => command_op _ _ _
theorem initDefault : Statement (.initDefault) := fun _ => command_op _ _ _
theorem signal (vec : Word) : Statement (.signal vec) := fun _ => command_op _ _ _
theorem reservedD : Statement (.reservedD) := fun _ => command_op _ _ _
theorem reservedE : Statement (.reservedE) := fun _ => command_op _ _ _
theorem reservedF : Statement (.reservedF) := fun _ => command_op _ _ _

end Laws.OperationCode

end Sys2Proof
end

