-- ==== Sys2Proof/Tests/Slice0.lean ====
section
/-! SUPPORT. Tests: the well-formedness checks, one written-out word for every operation, single steps with
the values of the spec's own examples, and for every statement with hypotheses a state that meets them. -/

namespace Sys2Proof.Tests
open Sys2Proof Sys2Proof.Machine

/-- The next state, if there is one. -/
def after (o : Host.Outcome State Fault Refusal) : Option State :=
  match o with
  | .next t => some t
  | .fault _ => none
  | .refused _ => none

/-- What `after` says of an outcome. -/
theorem next_of_after_isSome (o : Host.Outcome State Fault Refusal) (h : (after o).isSome = true) :
    ∃ t, o = .next t := by
  cases o with
  | next t => exact ⟨t, rfl⟩
  | fault f => exact nomatch f
  | refused r => exact absurd h (by simp [after])

/-- The response of an operation, if it completes. -/
def answer (i : Instr) (s : State) : Option Response := (after (exec i s)).map State.response

/-- A state of the Timer: period 10, the count given, both control bits set, STATUS 0xFE (R100). -/
def running (count : Word) : State :=
  { State.reset with
    timer := { Timer.reset with
      enabled := true, irqEnable := true, period := 10#32, count := count, status := 0xFE#8 } }

/-- A state of the PIC: vectors 0 and 5 pending, a mask, vector 0 fired at cycle 12, now cycle 15. -/
def waiting (mask : Word) : State :=
  { State.reset with
    cycles := 15#64
    pic := { maskBits := mask, pendingBits := 0x21#32, lec := Pic.reset.lec.set 0 12#64 } }

/-- Vector 0 after the samples 1, 2, 3, 4, 5 (R131): count 5, mean 3.0, m2 10.0. -/
def sampled : State :=
  { State.reset with
    metrics := {
      n := Metrics.reset.n.set 0 5#64
      mean := Metrics.reset.mean.set 0 0x4008000000000000#64
      m2 := Metrics.reset.m2.set 0 0x4024000000000000#64 } }

/-- PERIOD and MASK hold 0x12345678, the value of the examples of R82 to R85. -/
def patterned : State :=
  { State.reset with
    timer := { Timer.reset with period := 0x12345678#32 }
    pic := { Pic.reset with maskBits := 0x12345678#32, pendingBits := 0x121#32 } }

/-- The reset state with presentations waiting. -/
def presented (l : List Input) : State := State.reset.setInputs l

/-! Well-formedness: each check refuses an ill-formed term. -/

theorem test_wf_refuses_a_register_as_timer_hole :
    (Instr.read32TimerHole 0x0C#8).wf Config.standard = false ∧
    (Instr.write32TimerHole 0x00#8 1#32).wf Config.standard = false := by decide

theorem test_wf_refuses_a_register_as_pic_hole :
    (Instr.read32PicHole 0x0C#8).wf Config.standard = false ∧
    (Instr.write32PicHole 0x08#8 1#32).wf Config.standard = false := by decide

theorem test_wf_refuses_a_window_address_as_unmapped :
    (Instr.read32Unmapped 0x100000FF#32).wf Config.standard = false ∧
    (Instr.write32Unmapped 0x10000F00#32 1#32).wf Config.standard = false := by decide

theorem test_wf_accepts_window_edges :
    (Instr.read32TimerHole 0x10#8).wf Config.standard = true ∧
    (Instr.write32PicHole 0xFF#8 1#32).wf Config.standard = true ∧
    (Instr.read32Unmapped 0x0FFFFFFF#32).wf Config.standard = true ∧
    (Instr.write32Unmapped 0x10000100#32 1#32).wf Config.standard = true := by decide

/-- The decoder refuses, by name, a number wider than a command word (log 17). -/
theorem test_decode_refuses_a_wider_number :
    decodeNat Config.standard (2 ^ 68) = .error (.widerThanACommand (2 ^ 68)) ∧
    decodeTableWord 68 (2 ^ 68) = none := by decide

/-! Decoding: a word of every row, written out from R60, R61 and the addresses of R28. -/

theorem test_decode_operations_without_address :
    decode Config.standard 0x00000000000000000#68 = .tick ∧
    decode Config.standard 0x10000000000000000#68 = .irqPending ∧
    decode Config.standard 0x2000000000000001F#68 = .ackIrq 0x1F#32 ∧
    decode Config.standard 0x90000000000000005#68 = .getIrqStats 5#32 ∧
    decode Config.standard 0xA0000000000000000#68 = .getGlobalCycles ∧
    decode Config.standard 0xB0000000000000000#68 = .initDefault ∧
    decode Config.standard 0xC00000000FFFFFFFF#68 = .signal 0xFFFFFFFF#32 := by decide

theorem test_decode_reserved_codes :
    decode Config.standard 0xD0000000000000000#68 = .reservedD ∧
    decode Config.standard 0xE0000000000000000#68 = .reservedE ∧
    decode Config.standard 0xF0000000000000000#68 = .reservedF := by decide

theorem test_decode_sub_word_accesses :
    decode Config.standard 0x31000000500000000#68 = .read8 0x10000005#32 ∧
    decode Config.standard 0x41000000700000000#68 = .read16 0x10000007#32 ∧
    decode Config.standard 0x610000006000000AB#68 = .write8 0x10000006#32 0xAB#8 ∧
    decode Config.standard 0x7100000070000CDEF#68 = .write16 0x10000007#32 0xCDEF#16 := by decide

theorem test_decode_read32 :
    decode Config.standard 0x51000000000000000#68 = .read32TimerCtrl ∧
    decode Config.standard 0x51000000400000000#68 = .read32TimerPeriod ∧
    decode Config.standard 0x51000000800000000#68 = .read32TimerCount ∧
    decode Config.standard 0x51000000C00000000#68 = .read32TimerStatus ∧
    decode Config.standard 0x510000F0000000000#68 = .read32PicMask ∧
    decode Config.standard 0x510000F0400000000#68 = .read32PicPending ∧
    decode Config.standard 0x510000F0800000000#68 = .read32PicEoi ∧
    decode Config.standard 0x510000F0C00000000#68 = .read32PicPriority ∧
    decode Config.standard 0x51000000500000000#68 = .read32TimerHole 0x05#8 ∧
    decode Config.standard 0x510000FFC00000000#68 = .read32PicHole 0xFC#8 ∧
    decode Config.standard 0x51000010000000000#68 = .read32Unmapped 0x10000100#32 := by decide

theorem test_decode_write32 :
    decode Config.standard 0x81000000000000003#68 = .write32TimerCtrl 3#32 ∧
    decode Config.standard 0x8100000040000000A#68 = .write32TimerPeriod 10#32 ∧
    decode Config.standard 0x81000000800000001#68 = .write32TimerCount 1#32 ∧
    decode Config.standard 0x81000000CFFFFFF00#68 = .write32TimerStatus 0xFFFFFF00#32 ∧
    decode Config.standard 0x810000F0000000001#68 = .write32PicMask 1#32 ∧
    decode Config.standard 0x810000F0400000020#68 = .write32PicPending 0x20#32 ∧
    decode Config.standard 0x810000F0800000105#68 = .write32PicEoi 0x105#32 ∧
    decode Config.standard 0x810000F0C00000007#68 = .write32PicPriority 7#32 ∧
    decode Config.standard 0x8100000FC00000001#68 = .write32TimerHole 0xFC#8 1#32 ∧
    decode Config.standard 0x810000F0500000001#68 = .write32PicHole 0x05#8 1#32 ∧
    decode Config.standard 0x80000000000000001#68 = .write32Unmapped 0#32 1#32 := by decide

/-! Single steps. The expected values are the examples of the rules named. -/

/-- R100: STATUS 0xFE, then a fire, reads 0xFF; R92: the count is reloaded and vector 0 signalled. -/
theorem test_tick_fires :
    (after (exec .tick (running 0#32))).map (fun t =>
      (t.cycles, t.timer.count, t.timer.status, t.timer.eventsGenerated, t.pic.pendingBits, t.pic.lec[0]))
      = some (1#64, 10#32, 0xFF#8, 1#64, 1#32, 1#64) := by decide

/-- R90: a TICK that counts down to 0 does not also fire. -/
theorem test_tick_counts :
    (after (exec .tick (running 1#32))).map (fun t => (t.cycles, t.timer.count, t.timer.eventsGenerated))
      = some (1#64, 0#32, 0#64) := by decide

/-- R108: pending 0x21 with mask 0x1 answers vector 5, with mask 0 vector 0. -/
theorem test_irqPending_lowest_unmasked :
    answer .irqPending (waiting 1#32) = some (.irq true 5#5) ∧
    answer .irqPending (waiting 0#32) = some (.irq true 0#5) := by decide

/-- R111: fired at cycle 12, acknowledged at 15: bit 0 cleared, sample 3 folded, firing cycle consumed. -/
theorem test_ackIrq_folds_a_sample :
    (after (exec (.ackIrq 0#32) (waiting 1#32))).map (fun t =>
      (t.pic.pendingBits, t.pic.lec[0], t.metrics.n[0], t.metrics.mean[0], t.metrics.m2[0], t.response))
      = some (0x20#32, 0#64, 1#64, 0x4008000000000000#64, 0#64, .accepted true) := by decide +kernel

/-- R111: ACK_IRQ -1 and ACK_IRQ 32 answer 0 and change nothing. -/
theorem test_ackIrq_out_of_range :
    after (exec (.ackIrq 0xFFFFFFFF#32) (waiting 0#32)) =
      some { waiting 0#32 with response := .accepted false } ∧
    after (exec (.ackIrq 0x20#32) (waiting 0#32)) =
      some { waiting 0#32 with response := .accepted false } := by decide

/-- R82: bytes 1 and 3 of 0x12345678. -/
theorem test_read8_lanes :
    answer (.read8 0x10000005#32) patterned = some (.rdata8 0x56#8) ∧
    answer (.read8 0x10000007#32) patterned = some (.rdata8 0x12#8) := by decide

/-- R83: the four lanes of 0x12345678. -/
theorem test_read16_lanes :
    answer (.read16 0x10000004#32) patterned = some (.rdata16 0x5678#16) ∧
    answer (.read16 0x10000006#32) patterned = some (.rdata16 0x1234#16) ∧
    answer (.read16 0x10000005#32) patterned = some (.rdata16 0x3456#16) ∧
    answer (.read16 0x10000007#32) patterned = some (.rdata16 0x0012#16) := by decide

/-- R84: WRITE8 0x10000006, 0xAB leaves PERIOD 0x12AB5678. -/
theorem test_write8_one_lane :
    (after (exec (.write8 0x10000006#32 0xAB#8) patterned)).map (fun t => t.timer.period)
      = some 0x12AB5678#32 := by decide

/-- R180: WRITE8 PENDING, 0x20 loses bit 8 too. R181: WRITE8 EOI + 1, 0x05 acknowledges vector 0. -/
theorem test_write8_hazards :
    (after (exec (.write8 0x10000F04#32 0x20#8) patterned)).map (fun t => t.pic.pendingBits)
      = some 0x1#32 ∧
    (after (exec (.write8 0x10000F09#32 0x05#8) patterned)).map (fun t => t.pic.pendingBits)
      = some 0x120#32 := by decide

/-- R85: WRITE16 at lane 0, and at lane 3, where only the low byte of the data arrives. -/
theorem test_write16_lanes :
    (after (exec (.write16 0x10000004#32 0xBEEF#16) patterned)).map (fun t => t.timer.period)
      = some 0x1234BEEF#32 ∧
    (after (exec (.write16 0x10000007#32 0xCDEF#16) patterned)).map (fun t => t.timer.period)
      = some 0xEF345678#32 := by decide

/-- R80, R95 to R98: the Timer registers. -/
theorem test_read32_timer :
    answer .read32TimerCtrl (running 7#32) = some (.rdata32 3#32) ∧
    answer .read32TimerPeriod (running 7#32) = some (.rdata32 0xA#32) ∧
    answer .read32TimerCount (running 7#32) = some (.rdata32 7#32) ∧
    answer .read32TimerStatus (running 7#32) = some (.rdata32 0xFE#32) ∧
    answer (.read32TimerHole 0x05#8) (running 7#32) = some (.rdata32 0#32) := by decide

/-- R80, R112 to R115: the PIC registers; R42: an unmapped address. -/
theorem test_read32_pic :
    answer .read32PicMask (waiting 1#32) = some (.rdata32 1#32) ∧
    answer .read32PicPending (waiting 1#32) = some (.rdata32 0x21#32) ∧
    answer .read32PicEoi (waiting 1#32) = some (.rdata32 0#32) ∧
    answer .read32PicPriority (waiting 1#32) = some (.rdata32 0#32) ∧
    answer (.read32PicHole 0xFC#8) (waiting 1#32) = some (.rdata32 0#32) ∧
    answer (.read32Unmapped 0x10000100#32) (waiting 1#32) = some (.rdata32 0#32) := by decide

/-- R81: a write of 0xFFFFFFFF to CTRL sets both bits; R98: 0xFFFFFF00 to STATUS clears it. -/
theorem test_write32_timer :
    (after (exec (.write32TimerCtrl 0xFFFFFFFF#32) State.reset)).map (fun t =>
      (t.timer.enabled, t.timer.irqEnable)) = some (true, true) ∧
    (after (exec (.write32TimerPeriod 0xA#32) State.reset)).map (fun t => t.timer.period)
      = some 0xA#32 ∧
    (after (exec (.write32TimerCount 5#32) State.reset)).map (fun t => t.timer.count) = some 5#32 ∧
    (after (exec (.write32TimerStatus 0xFFFFFF00#32) (running 0#32))).map (fun t => t.timer.status)
      = some 0#8 := by decide

/-- R112 to R114: MASK stores; PENDING 0x21 with 0x20 written leaves 1; EOI 0x105 acknowledges vector 5. -/
theorem test_write32_pic :
    (after (exec (.write32PicMask 1#32) (waiting 0#32))).map (fun t => t.pic.maskBits) = some 1#32 ∧
    (after (exec (.write32PicPending 0x20#32) (waiting 0#32))).map (fun t => t.pic.pendingBits)
      = some 1#32 ∧
    (after (exec (.write32PicEoi 0x105#32) (waiting 0#32))).map (fun t => t.pic.pendingBits)
      = some 1#32 ∧
    (after (exec (.write32PicEoi 0x40#32) (waiting 0#32))).map (fun t => t.pic)
      = some (waiting 0#32).pic := by decide

/-- R42, R43, R115: PRIORITY, holes and unmapped addresses drop the word. -/
theorem test_write32_dropped :
    after (exec (.write32PicPriority 7#32) (running 3#32)) = some (running 3#32) ∧
    after (exec (.write32TimerHole 0xFC#8 7#32) (running 3#32)) = some (running 3#32) ∧
    after (exec (.write32PicHole 0x05#8 7#32) (running 3#32)) = some (running 3#32) ∧
    after (exec (.write32Unmapped 0#32 7#32) (running 3#32)) = some (running 3#32) := by decide

/-- R129: (5, 3.0, 2.5) after the samples 1 to 5; vector 32 answers zeros. -/
theorem test_getIrqStats :
    answer (.getIrqStats 0#32) sampled =
      some (.stats 5#64 0x4008000000000000#64 0x4004000000000000#64) ∧
    answer (.getIrqStats 0x20#32) sampled = some (.stats 0#64 0#64 0#64) := by decide +kernel

/-- R131: the five samples folded one by one in binary64. -/
theorem test_statistics_of_one_to_five :
    foldSamples binary64Ops [1#64, 2#64, 3#64, 4#64, 5#64] =
      { n := 5#64, mean := 0x4008000000000000#64, m2 := 0x4024000000000000#64 } := by decide +kernel

/-- R136: the Clock is answered. -/
theorem test_getGlobalCycles :
    answer .getGlobalCycles (waiting 0#32) = some (.cycles 15#64) := by decide

/-- R137: everything is 0 again. -/
theorem test_initDefault :
    after (exec .initDefault (waiting 1#32)) = some State.reset ∧
    after (exec .initDefault (running 5#32)) = some State.reset := by decide

/-- R106: at cycle 15, SIGNAL 31 raises vector 31 and records 15; R105: SIGNAL 32 does nothing. -/
theorem test_signal :
    (after (exec (.signal 31#32) (waiting 0#32))).map (fun t =>
      (t.pic.pendingBits, t.pic.lec[31])) = some (0x80000021#32, 15#64) ∧
    after (exec (.signal 32#32) (waiting 0#32)) = some (waiting 0#32) := by decide

/-- R69: nothing happens. -/
theorem test_reserved :
    after (exec .reservedD (running 3#32)) = some (running 3#32) ∧
    after (exec .reservedE (running 3#32)) = some (running 3#32) ∧
    after (exec .reservedF (running 3#32)) = some (running 3#32) := by decide

/-- A table word presented to the reset state is the operation performed (R12, R60). -/
theorem test_step_runs_the_presented_word :
    after (step (State.reset.withFetchWord 68 0x8100000040000000A)) =
      some { State.reset with timer := { Timer.reset with period := 10#32 } } := by decide

/-- R75: SERVICE acknowledges the vector presented. -/
theorem test_service :
    (after (serviceMacro (waiting 1#32))).map (fun t => t.pic.pendingBits) = some 1#32 := by decide

/-! Witnesses: for each statement with hypotheses, values that meet all of them. -/

/-- Bases other than the default ones, at both ends of the address space (R7). -/
def edges : Config := { timerBase := 0xFFFFFF00#32, picBase := 0x00000000#32 }

theorem witness_configurations : Config.standard.WF ∧ edges.WF := by decide

theorem witness_DecodeOfEncodeIsTheInstruction :
    edges.WF ∧ (Instr.read32TimerHole 0xFF#8).wf edges = true ∧
    (Instr.write32PicHole 0x10#8 1#32).wf edges = true ∧
    (Instr.read32Unmapped 0x00000100#32).wf edges = true := by decide

theorem witness_IgnoredBitsHaveNoEffect :
    canonicalCommand 0x0DEADBEEF12345678#68 = canonicalCommand 0#68 ∧
    canonicalCommand 0x610000006FFFFFFAB#68 = canonicalCommand 0x610000006000000AB#68 := by decide

theorem witness_StepRunsTheDecodedInstruction :
    (presented [.command 0xA0000000000000000#68]).inputs = .command 0xA0000000000000000#68 :: [] := by
  decide

theorem witness_HardwareResetIsInitDefault :
    (presented [.hardwareReset, .command 0#68]).inputs = .hardwareReset :: [.command 0#68] := by decide

theorem witness_NothingPresentedNothingDone : State.reset.inputs = [] := by decide

theorem witness_StepKeepsParametersAndTakesOneInput :
    step (presented [.command 0#68]) = .next { State.reset with cycles := 1#64 } := rfl

theorem witness_TickTakesExactlyOneArm_idle :
    State.reset.timer.enabled = false ∧
    (running 0#32).timer.enabled = true ∧
    { (running 0#32).timer with period := 0#32 }.period = 0 := by decide

theorem witness_TickTakesExactlyOneArm_firing :
    (running 0#32).timer.enabled = true ∧ (running 0#32).timer.period ≠ 0 ∧
    (running 0#32).timer.count = 0 := by decide

theorem witness_TickTakesExactlyOneArm_counting :
    (running 1#32).timer.enabled = true ∧ (running 1#32).timer.period ≠ 0 ∧
    (running 1#32).timer.count ≠ 0 := by decide

theorem witness_FiringCadence :
    (running 4#32).timer.enabled = true ∧ (running 4#32).timer.period ≠ 0 ∧
    4 ≤ (running 4#32).timer.count.toNat ∧ (running 4#32).timer.count.toNat < 5 := by decide

theorem witness_vectors_out_of_range :
    (0xFFFFFFFF#32 : Word).toInt < 0 ∧ 32 ≤ (0x20#32 : Word).toInt ∧
    (0x80000000#32 : Word).toInt < 0 ∧ 32 ≤ (0x7FFFFFFF#32 : Word).toInt := by decide

theorem witness_IrqPendingAnswersTheLowestVector :
    ((waiting 1#32).pic.pendingBits.getLsbD (5 : VectorIx) = true ∧
      (waiting 1#32).pic.maskBits.getLsbD (5 : VectorIx) = false ∧
      ∀ w : VectorIx, w < 5 → (waiting 1#32).pic.pendingBits.getLsbD w = false ∨
        (waiting 1#32).pic.maskBits.getLsbD w = true) ∧
    ∀ w : VectorIx, (waiting 0xFFFFFFFF#32).pic.pendingBits.getLsbD w = false ∨
      (waiting 0xFFFFFFFF#32).pic.maskBits.getLsbD w = true := by decide

theorem witness_IrqPendingAnswersTheLowestVector_edges :
    ((waiting 0#32).pic.pendingBits.getLsbD (0 : VectorIx) = true ∧
      (waiting 0#32).pic.maskBits.getLsbD (0 : VectorIx) = false) ∧
    ((0x80000000#32 : Word).getLsbD (31 : VectorIx) = true ∧
      ∀ w : VectorIx, w < 31 → (0x80000000#32 : Word).getLsbD w = false) := by decide

theorem witness_AckIrqFoldsOneSample :
    (waiting 0#32).pic.lec[(31 : VectorIx)] = 0 ∧ (waiting 0#32).pic.lec[(0 : VectorIx)] ≠ 0 := by
  decide

theorem witness_SecondAcknowledgmentChangesNothing :
    State.reset.pic.lec[(31 : VectorIx)] = 0 := by decide

theorem witness_EoiAcknowledgesTheLowByte :
    32 ≤ ((0x120#32 : Word) &&& 0xFF#32).toNat ∧ 32 ≤ ((0xFF#32 : Word) &&& 0xFF#32).toNat := by decide

theorem witness_ServiceAcknowledgesTheLowestVector :
    ((waiting 0#32).pic.pendingBits.getLsbD (0 : VectorIx) = true ∧
      (waiting 0#32).pic.maskBits.getLsbD (0 : VectorIx) = false ∧
      ∀ w : VectorIx, w < 0 → (waiting 0#32).pic.pendingBits.getLsbD w = false ∨
        (waiting 0#32).pic.maskBits.getLsbD w = true) ∧
    ∀ w : VectorIx, State.reset.pic.pendingBits.getLsbD w = false ∨
      State.reset.pic.maskBits.getLsbD w = true := by decide

theorem witness_LatencyIsFromTheLatestSignal :
    State.reset.timer.enabled = false ∧ State.reset.cycles + BitVec.ofNat 64 1 ≠ 0 ∧
    (waiting 0#32).cycles + BitVec.ofNat 64 0 ≠ 0 := by decide

theorem witness_GetIrqStatsAnswersTheStatistics :
    State.reset.metrics.n[(0 : VectorIx)].toNat ≤ 1 ∧ ((1#64 : DWord)).toNat ≤ 1 ∧
    1 < sampled.metrics.n[(0 : VectorIx)].toNat ∧ 1 < ((2#64 : DWord)).toNat := by decide

theorem witness_WelfordIsExactOverTheRationals :
    ([0#64] : List DWord) ≠ [] ∧ ([0#64] : List DWord).length < 2 ^ 64 := by decide

theorem witness_ExactInstanceMeetsTheTolerance : (0 : ℚ) ≤ 0 := le_refl 0

theorem witness_ConversionIsExactUpTo53Bits :
    (0x20000000000000#64 : DWord).toNat ≤ 2 ^ 53 ∧
    Binary64.ofU64 0x20000000000000#64 = 0x4340000000000000#64 := by decide +kernel

/-- 1.0 and 3.0: every operation's hypotheses hold, the divisor not zero. -/
theorem witness_OperationsRoundToNearestEven :
    Binary64.isFinite 0x3FF0000000000000#64 = true ∧ Binary64.isFinite 0x4008000000000000#64 = true ∧
    Binary64.isFinite (Binary64.add 0x3FF0000000000000#64 0x4008000000000000#64) = true ∧
    Binary64.isFinite (Binary64.sub 0x3FF0000000000000#64 0x4008000000000000#64) = true ∧
    Binary64.isFinite (Binary64.mul 0x3FF0000000000000#64 0x4008000000000000#64) = true ∧
    Binary64.isFinite (Binary64.div 0x3FF0000000000000#64 0x4008000000000000#64) = true ∧
    Binary64.toRat 0x4008000000000000#64 ≠ 0 := by decide +kernel

/-- The greatest finite number plus half its last place is the threshold and overflows; plus the number next
below that half, it does not. -/
theorem witness_FiniteExactlyBelowTheOverflowThreshold :
    Binary64.isFinite 0x7FEFFFFFFFFFFFFF#64 = true ∧ Binary64.isFinite 0x7C90000000000000#64 = true ∧
    Binary64.isFinite 0x7C8FFFFFFFFFFFFF#64 = true ∧ Binary64.toRat 0x7C90000000000000#64 ≠ 0 ∧
    Binary64.add 0x7FEFFFFFFFFFFFFF#64 0x7C90000000000000#64 = 0x7FF0000000000000#64 ∧
    Binary64.add 0x7FEFFFFFFFFFFFFF#64 0x7C8FFFFFFFFFFFFF#64 = 0x7FEFFFFFFFFFFFFF#64 := by
  decide +kernel

theorem witness_EqualSamplesHaveNoSpread : 0 < 1 ∧ 2 ^ 64 - 1 < 2 ^ 64 := by decide

theorem witness_OneSamplePerRecordedFiring : Instr.ackIrq 0#32 ≠ .initDefault := by decide

theorem witness_ReadAndWrite32AtEveryAddress :
    Config.standard.WF ∧
    (presented [.command (command 0x5#4 0x10000F04#32 0#32)]).inputs =
      .command (command 0x5#4 0x10000F04#32 0#32) :: [] ∧
    (presented [.command (command 0x8#4 0x10000F08#32 5#32)]).inputs =
      .command (command 0x8#4 0x10000F08#32 5#32) :: [] ∧
    (presented [.command (command 0x8#4 0x10000001#32 5#32)]).inputs =
      .command (command 0x8#4 0x10000001#32 5#32) :: [] := by decide

theorem witness_RegisterRoundTrip :
    Config.standard.WF ∧
    (presented [.command (command 0x8#4 (regAddr Config.standard (.pic .priority)) 7#32),
        .command (command 0x5#4 (regAddr Config.standard (.pic .priority)) 0#32)]).inputs =
      [.command (command 0x8#4 0x10000F0C#32 7#32), .command (command 0x5#4 0x10000F0C#32 0#32)] := by
  decide

/-- The sub-word statements: every lane of a well-formed configuration. -/
theorem witness_sub_word_lanes : State.reset.config.WF ∧ 0 < 1 ∧ 0 < 3 ∧ 3 < 4 := by decide

theorem witness_UnmappedAccessesAreInert :
    ∀ a ∈ [0x00000000#32, 0x0FFFFFFF#32, 0x10000100#32, 0x10000EFF#32, 0x10001000#32, 0xFFFFFFFF#32],
      (a.toNat < State.reset.config.timerBase.toNat ∨ State.reset.config.timerBase.toNat + 0x100 ≤ a.toNat) ∧
      (a.toNat < State.reset.config.picBase.toNat ∨ State.reset.config.picBase.toNat + 0x100 ≤ a.toNat) := by
  simp [State.reset, Config.standard]

theorem witness_HolesAndMisalignedWordsAreInert :
    (∀ a ∈ [0x10000010#32, 0x100000FF#32], State.reset.config.timerBase.toNat + 0x10 ≤ a.toNat ∧
      a.toNat < State.reset.config.timerBase.toNat + 0x100) ∧
    (∀ a ∈ [0x10000F0C#32, 0x10000FFF#32], State.reset.config.picBase.toNat + 0x0C ≤ a.toNat ∧
      a.toNat < State.reset.config.picBase.toNat + 0x100) ∧
    (0x10000001#32 : Word).toNat % 4 ≠ 0 ∧ (0x10000F0B#32 : Word).toNat % 4 ≠ 0 := by
  simp [State.reset, Config.standard]

theorem witness_Write32StoresFourBytes :
    (0x10000007#32 : Word).toNat = (regAddr State.reset.config (.timer .period)).toNat + 3 ∧
    (∀ k < 4, (0x10000008#32 : Word).toNat ≠ (regAddr State.reset.config (.timer .period)).toNat + k) ∧
    (∀ k < 4, (0x10000003#32 : Word).toNat ≠ (regAddr State.reset.config (.timer .period)).toNat + k) := by
  decide

theorem witness_QueriesChangeNoState :
    isQuery .irqPending = true ∧ isQuery (.read8 0#32) = true ∧ isQuery .reservedF = true := by decide

theorem witness_GlobalCyclesCountTicks :
    Instr.irqPending ≠ .tick ∧ Instr.irqPending ≠ .initDefault := by decide

theorem witness_ReservedCodesAreInert :
    13 ≤ (0xD#4 : BitVec 4).toNat ∧ 13 ≤ (0xF#4 : BitVec 4).toNat ∧
    (presented [.command (command 0xD#4 0#32 0#32)]).inputs =
      .command (command 0xD#4 0#32 0#32) :: [] := by decide

/-- A WRITE8 just past STATUS and one to PENDING are admitted by the statements about STATUS and MASK. -/
theorem witness_StatusAndMaskStatements :
    Instr.write8 0x10000010#32 1#8 ≠ .initDefault ∧
    (∀ w, Instr.write8 0x10000010#32 1#8 ≠ .write32TimerStatus w) ∧
    (∀ w, Instr.write8 0x10000F04#32 1#8 ≠ .write32PicMask w) ∧
    regAt State.reset.config (containingWord 0x10000010#32) ≠ some (.timer .status) ∧
    regAt State.reset.config (containingWord 0x10000F04#32) ≠ some (.pic .mask) := by
  refine ⟨by decide, ?_, ?_, by decide, by decide⟩ <;> simp

theorem witness_OnlySignalAndFireRaiseRequests :
    (∃ t, exec (.signal 31#32) State.reset = .next t ∧
      State.reset.pic.pendingBits.getLsbD (31 : VectorIx) = false ∧
      t.pic.pendingBits.getLsbD (31 : VectorIx) = true) ∧
    ∃ t, exec .tick (running 0#32) = .next t ∧
      (running 0#32).pic.pendingBits.getLsbD (0 : VectorIx) = false ∧
      t.pic.pendingBits.getLsbD (0 : VectorIx) = true :=
  ⟨⟨_, rfl, by decide, by decide⟩, ⟨_, rfl, by decide, by decide⟩⟩

theorem witness_TheMaskHidesAndNothingElse :
    Instr.read8 0x10000F04#32 ≠ .irqPending ∧ Instr.read8 0x10000F04#32 ≠ .read32PicMask ∧
    regAt State.reset.config (containingWord 0x10000F04#32) ≠ some (.pic .mask) := by decide

theorem witness_EveryStepKeepsTheClockBounds :
    ClockBounds ((waiting 0#32).setInputs [.command 0#68]) ∧
    ((waiting 0#32).setInputs [.command 0#68]).cycles.toNat + 1 < 2 ^ 64 ∧
    ∃ t, step ((waiting 0#32).setInputs [.command 0#68]) = .next t :=
  ⟨⟨by decide, by decide +kernel⟩, by decide, next_of_after_isSome _ (by decide +kernel)⟩

theorem witness_EveryStepKeepsThePublicContract :
    PublicContract ((waiting 0#32).setPic { (waiting 0#32).pic with pendingBits := 1#32 }
      |>.setInputs [.command 0#68]) ∧
    ∃ t, step ((waiting 0#32).setPic { (waiting 0#32).pic with pendingBits := 1#32 }
      |>.setInputs [.command 0#68]) = .next t := by
  refine ⟨⟨?_, by decide +kernel⟩, next_of_after_isSome _ (by decide +kernel)⟩
  intro c hc
  simp at hc
  subst hc
  decide

end Sys2Proof.Tests
end

/-! The instruction a command decodes to (R60, R73), and the step that runs it (R5, R53). -/

namespace Sys2Proof.Machine

/-- The offset of a hole row is one that the offset switch refused; the address of the unmapped row is
one that the window decode refused (R42, R43). -/
theorem decodeRead32_wf (cfg : Config) (a : Word) : (decodeRead32 cfg a).wf cfg = true := by
  unfold decodeRead32
  cases hregion : decodeAddr cfg a with
  | timer off =>
    cases hreg : timerReg off with
    | none => simp [Instr.wf, hreg]
    | some r => cases r <;> simp [Instr.wf, hreg]
  | pic off =>
    cases hreg : picReg off with
    | none => simp [Instr.wf, hreg]
    | some r => cases r <;> simp [Instr.wf, hreg]
  | unmapped => simp [Instr.wf, hregion]

/-- READ32 and WRITE32 choose their rows alike: the word to write plays no part (R81). -/
theorem decodeWrite32_wf_eq_decodeRead32_wf (cfg : Config) (a w : Word) :
    (decodeWrite32 cfg a w).wf cfg = (decodeRead32 cfg a).wf cfg := by
  unfold decodeWrite32 decodeRead32
  cases decodeAddr cfg a with
  | timer off =>
    dsimp only
    cases timerReg off with
    | none => rfl
    | some r => cases r <;> rfl
  | pic off =>
    dsimp only
    cases picReg off with
    | none => rfl
    | some r => cases r <;> rfl
  | unmapped => rfl

theorem decodeWrite32_wf (cfg : Config) (a w : Word) : (decodeWrite32 cfg a w).wf cfg = true :=
  (decodeWrite32_wf_eq_decodeRead32_wf cfg a w).trans (decodeRead32_wf cfg a)

/-- Only the operation codes of READ32 and WRITE32 lead to rows whose operand is constrained (R61). -/
theorem decodeOp_wf (cfg : Config) (op : BitVec 4) (a d : Word) :
    (decodeOp cfg op a d).wf cfg = true := by
  have hread := decodeRead32_wf cfg a
  have hwrite := decodeWrite32_wf cfg a d
  simp only [decodeOp, apply_ite (Instr.wf cfg), hread, hwrite]
  simp only [Instr.wf, ite_self]

/-- Whatever a command word decodes to is well formed (R73). -/
theorem decode_wf (cfg : Config) (c : Command) : (decode cfg c).wf cfg = true :=
  decodeOp_wf cfg (Command.op c) (Command.a c) (Command.d c)

/-- The step with a command presented first (R5, R53). -/
theorem step_command {s : State} {c : Command} {rest : List Input} (h : s.inputs = .command c :: rest) :
    step s = exec (decode s.config c) (s.setInputs rest) := by
  simp only [step, nextInput_cons h, State.setInputs_config]

/-- Settles O7: every decoded command is well formed, and taking the oldest presentation leaves the
bases under which the command is decoded. -/
theorem stepRunsTheDecodedInstruction : Obligations.StepRunsTheDecodedInstruction := by
  unfold Obligations.StepRunsTheDecodedInstruction
  intro s c rest hinputs
  exact ⟨decode_wf s.config c, step_command hinputs⟩

end Sys2Proof.Machine

/-! What an operation does to the block, in six kinds (R135): every proof about all 36 operations splits
these six instead. -/

namespace Sys2Proof.Machine

/-- What an operation does to the block, its response apart. -/
inductive Action where
  | idle
  | tick
  | reset
  | signal (vec : Int)
  | acknowledge (vec : Int)
  | write (r : Reg) (w : Word)

def Action.perform : Action → State → State
  | .idle, s => s
  | .tick, s => tickBlock s
  | .reset, s => initBlock s
  | .signal vec, s => Machine.signal vec s
  | .acknowledge vec, s => Machine.acknowledge vec s
  | .write r w, s => writeReg s r w

/-- The action of a word written to an address (R81): holes and unmapped addresses drop it (R42, R43). -/
def storeAction (cfg : Config) (addr w : Word) : Action :=
  match regAt cfg addr with
  | some r => .write r w
  | none => .idle

theorem perform_storeAction (s : State) (addr w : Word) :
    (storeAction s.config addr w).perform s = regWrite32 s addr w := by
  unfold storeAction regWrite32
  cases regAt s.config addr <;> rfl

/-- The action of an operation. It depends on the state only through the word that a sub-word write merges
its data into (R84, R85). -/
def actionOf (s : State) : Instr → Action
  | .tick => .tick
  | .initDefault => .reset
  | .signal vec => .signal (signedVector vec)
  | .ackIrq vec => .acknowledge (signedVector vec)
  | .write8 a b =>
    storeAction s.config (containingWord a) (merge8 (regRead32 s (containingWord a)) a b)
  | .write16 a h =>
    storeAction s.config (containingWord a) (merge16 (regRead32 s (containingWord a)) a h)
  | .write32TimerCtrl w => .write (.timer .ctrl) w
  | .write32TimerPeriod w => .write (.timer .period) w
  | .write32TimerCount w => .write (.timer .count) w
  | .write32TimerStatus w => .write (.timer .status) w
  | .write32PicMask w => .write (.pic .mask) w
  | .write32PicPending w => .write (.pic .pending) w
  | .write32PicEoi w => .write (.pic .eoi) w
  | .write32PicPriority w => .write (.pic .priority) w
  | _ => .idle

@[simp] theorem actionOf_write8 (s : State) (a : Word) (b : Byte) : actionOf s (.write8 a b) =
    storeAction s.config (containingWord a) (merge8 (regRead32 s (containingWord a)) a b) := rfl
@[simp] theorem actionOf_write16 (s : State) (a : Word) (h : Half) : actionOf s (.write16 a h) =
    storeAction s.config (containingWord a) (merge16 (regRead32 s (containingWord a)) a h) := rfl

/-- The response of an operation (R63). -/
def answerOf (s : State) : Instr → Response
  | .irqPending => irqLine s
  | .ackIrq vec => .accepted (vectorInRange (signedVector vec)).isSome
  | .read8 a => .rdata8 (byteAt s a)
  | .read16 a => .rdata16 (halfAt s a)
  | .read32TimerCtrl => .rdata32 (readReg s (.timer .ctrl))
  | .read32TimerPeriod => .rdata32 (readReg s (.timer .period))
  | .read32TimerCount => .rdata32 (readReg s (.timer .count))
  | .read32TimerStatus => .rdata32 (readReg s (.timer .status))
  | .read32PicMask => .rdata32 (readReg s (.pic .mask))
  | .read32PicPending => .rdata32 (readReg s (.pic .pending))
  | .read32PicEoi => .rdata32 (readReg s (.pic .eoi))
  | .read32PicPriority => .rdata32 (readReg s (.pic .priority))
  | .read32TimerHole _ | .read32PicHole _ | .read32Unmapped _ => .rdata32 0
  | .getIrqStats vec => statsResponse s.metrics (signedVector vec)
  | .getGlobalCycles => .cycles s.cycles
  | _ => .nothing

@[simp] theorem answerOf_read8 (s : State) (a : Word) : answerOf s (.read8 a) = .rdata8 (byteAt s a) := rfl
@[simp] theorem answerOf_read16 (s : State) (a : Word) : answerOf s (.read16 a) = .rdata16 (halfAt s a) := rfl

/-- Every operation performs its action and presents its response (R135, R145). -/
theorem exec_eq (i : Instr) (s : State) :
    exec i s = .next (((actionOf s i).perform s).respond (answerOf s i)) := by
  cases i with
  | ackIrq vec =>
    change execAckIrq vec s = .next ((acknowledge (signedVector vec) s).respond
      (.accepted (vectorInRange (signedVector vec)).isSome))
    unfold execAckIrq acknowledge
    cases vectorInRange (signedVector vec) <;> rfl
  | write8 a b => exact congrArg written (perform_storeAction s _ _).symm
  | write16 a h => exact congrArg written (perform_storeAction s _ _).symm
  | _ => rfl

/-- The WRITE32 row of a register (R73). -/
def write32 : Reg → Word → Instr
  | .timer .ctrl => .write32TimerCtrl
  | .timer .period => .write32TimerPeriod
  | .timer .count => .write32TimerCount
  | .timer .status => .write32TimerStatus
  | .pic .mask => .write32PicMask
  | .pic .pending => .write32PicPending
  | .pic .eoi => .write32PicEoi
  | .pic .priority => .write32PicPriority

/-- The operations that write a register: its WRITE32, and a WRITE8 or WRITE16 whose containing word it is. -/
inductive Writes (cfg : Config) (r : Reg) : Instr → Prop where
  | word (w : Word) : Writes cfg r (write32 r w)
  | byte (a : Word) (b : Byte) (h : regAt cfg (containingWord a) = some r) : Writes cfg r (.write8 a b)
  | half (a : Word) (x : Half) (h : regAt cfg (containingWord a) = some r) : Writes cfg r (.write16 a x)

/-- Which operation an action can come from. -/
inductive Does (s : State) (i : Instr) : Action → Prop where
  | idle : Does s i .idle
  | tick (hi : i = .tick) : Does s i .tick
  | reset (hi : i = .initDefault) : Does s i .reset
  | signal (vec : Word) (hi : i = .signal vec) : Does s i (.signal (signedVector vec))
  | acknowledge (vec : Int) : Does s i (.acknowledge vec)
  | write (r : Reg) (w : Word) (hi : Writes s.config r i) : Does s i (.write r w)

theorem does_storeAction {s : State} {i : Instr} {addr : Word} (w : Word)
    (hi : ∀ r, regAt s.config addr = some r → Writes s.config r i) :
    Does s i (storeAction s.config addr w) := by
  unfold storeAction
  cases hr : regAt s.config addr with
  | none => exact .idle
  | some r => exact .write r w (hi r hr)

theorem does_actionOf (s : State) (i : Instr) : Does s i (actionOf s i) := by
  cases i with
  | tick => exact .tick rfl
  | initDefault => exact .reset rfl
  | signal vec => exact .signal vec rfl
  | ackIrq vec => exact .acknowledge _
  | write8 a b => exact does_storeAction _ fun _ => .byte a b
  | write16 a x => exact does_storeAction _ fun _ => .half a x
  | write32TimerCtrl w => exact .write (.timer .ctrl) w (.word w)
  | write32TimerPeriod w => exact .write (.timer .period) w (.word w)
  | write32TimerCount w => exact .write (.timer .count) w (.word w)
  | write32TimerStatus w => exact .write (.timer .status) w (.word w)
  | write32PicMask w => exact .write (.pic .mask) w (.word w)
  | write32PicPending w => exact .write (.pic .pending) w (.word w)
  | write32PicEoi w => exact .write (.pic .eoi) w (.word w)
  | write32PicPriority w => exact .write (.pic .priority) w (.word w)
  | _ => exact .idle

/-- What an operation can do, with the operation it comes from. -/
theorem exec_cases (i : Instr) (s : State) :
    ∃ a r, Does s i a ∧ exec i s = .next ((a.perform s).respond r) :=
  ⟨actionOf s i, answerOf s i, does_actionOf s i, exec_eq i s⟩

/-- What a step can do: one action at the state without the oldest presentation. -/
theorem step_cases {s t : State} (h : step s = .next t) :
    ∃ (a : Action) (r : Response), t = (a.perform (s.setInputs s.inputs.tail)).respond r := by
  cases hinputs : s.inputs with
  | nil =>
    simp only [step, nextInput_nil hinputs, Host.Outcome.next.injEq] at h
    subst h
    exact ⟨.idle, s.response, by rw [List.tail_nil, ← hinputs]; rfl⟩
  | cons input rest =>
    cases input with
    | command c =>
      rw [step_command hinputs, exec_eq, Host.Outcome.next.injEq] at h
      exact ⟨_, _, h.symm⟩
    | hardwareReset =>
      simp only [step, nextInput_cons hinputs, Host.Outcome.next.injEq] at h
      exact ⟨.reset, .nothing, h.symm⟩

/-! What each shared operation leaves unchanged. -/

@[simp] theorem acknowledge_cycles (vec : Int) (s : State) : (acknowledge vec s).cycles = s.cycles := by
  rcases acknowledge_cases vec s with ⟨-, e⟩ | ⟨v, -, e⟩ <;> simp [e]
@[simp] theorem acknowledge_timer (vec : Int) (s : State) : (acknowledge vec s).timer = s.timer := by
  rcases acknowledge_cases vec s with ⟨-, e⟩ | ⟨v, -, e⟩ <;> simp [e]
@[simp] theorem acknowledge_config (vec : Int) (s : State) : (acknowledge vec s).config = s.config := by
  rcases acknowledge_cases vec s with ⟨-, e⟩ | ⟨v, -, e⟩ <;> simp [e]
@[simp] theorem acknowledge_inputs (vec : Int) (s : State) : (acknowledge vec s).inputs = s.inputs := by
  rcases acknowledge_cases vec s with ⟨-, e⟩ | ⟨v, -, e⟩ <;> simp [e]
@[simp] theorem acknowledge_maskBits (vec : Int) (s : State) :
    (acknowledge vec s).pic.maskBits = s.pic.maskBits := by
  rcases acknowledge_cases vec s with ⟨-, e⟩ | ⟨v, -, e⟩ <;> simp [e]

@[simp] theorem writeReg_timer (s : State) (r : TimerReg) (w : Word) :
    writeReg s (.timer r) w = s.setTimer (writeTimerReg s.timer r w) := rfl
@[simp] theorem writeReg_mask (s : State) (w : Word) :
    writeReg s (.pic .mask) w = s.setPic { s.pic with maskBits := w } := rfl
@[simp] theorem writeReg_pending (s : State) (w : Word) :
    writeReg s (.pic .pending) w =
      s.setPic { s.pic with pendingBits := writeOneToClear s.pic.pendingBits w } := rfl
@[simp] theorem writeReg_eoi (s : State) (w : Word) :
    writeReg s (.pic .eoi) w = acknowledge (eoiVector w) s := rfl
@[simp] theorem writeReg_priority (s : State) (w : Word) : writeReg s (.pic .priority) w = s := rfl

@[simp] theorem writeTimerReg_eventsGenerated (t : Timer) (r : TimerReg) (w : Word) :
    (writeTimerReg t r w).eventsGenerated = t.eventsGenerated := by
  cases r <;> rfl

theorem writeTimerReg_status_of_ne {r : TimerReg} (hr : r ≠ .status) (t : Timer) (w : Word) :
    (writeTimerReg t r w).status = t.status := by
  cases r with
  | status => exact absurd rfl hr
  | _ => rfl

@[simp] theorem writeReg_cycles (s : State) (r : Reg) (w : Word) : (writeReg s r w).cycles = s.cycles := by
  rcases r with r | _ | _ | _ | _ <;> simp
@[simp] theorem writeReg_config (s : State) (r : Reg) (w : Word) : (writeReg s r w).config = s.config := by
  rcases r with r | _ | _ | _ | _ <;> simp
@[simp] theorem writeReg_inputs (s : State) (r : Reg) (w : Word) : (writeReg s r w).inputs = s.inputs := by
  rcases r with r | _ | _ | _ | _ <;> simp
@[simp] theorem writeReg_eventsGenerated (s : State) (r : Reg) (w : Word) :
    (writeReg s r w).timer.eventsGenerated = s.timer.eventsGenerated := by
  rcases r with r | _ | _ | _ | _ <;> simp

/-- A write to any other register leaves STATUS (R98). -/
theorem writeReg_status_of_ne {r : Reg} (hr : r ≠ .timer .status) (s : State) (w : Word) :
    (writeReg s r w).timer.status = s.timer.status := by
  rcases r with r | _ | _ | _ | _
  · exact writeTimerReg_status_of_ne (fun e => hr (e ▸ rfl)) s.timer w
  all_goals simp

/-- A write to any other register leaves the mask (R112). -/
theorem writeReg_maskBits_of_ne {r : Reg} (hr : r ≠ .pic .mask) (s : State) (w : Word) :
    (writeReg s r w).pic.maskBits = s.pic.maskBits := by
  rcases r with r | _ | _ | _ | _
  case pic.mask => exact absurd rfl hr
  all_goals simp

@[simp] theorem fire_cycles (s : State) : (fire s).cycles = s.cycles := by rw [fire_eq]
@[simp] theorem fire_metrics (s : State) : (fire s).metrics = s.metrics := by rw [fire_eq]
@[simp] theorem fire_config (s : State) : (fire s).config = s.config := by rw [fire_eq]
@[simp] theorem fire_inputs (s : State) : (fire s).inputs = s.inputs := by rw [fire_eq]
@[simp] theorem fire_status (s : State) : (fire s).timer.status = setFired s.timer.status := by rw [fire_eq]
@[simp] theorem fire_eventsGenerated (s : State) :
    (fire s).timer.eventsGenerated = s.timer.eventsGenerated + 1 := by rw [fire_eq]

/-- A fire raises vector 0 as `Signal(0)` does, if `irq_enable` is set (R92). -/
theorem fire_pic (s : State) :
    (fire s).pic = if s.timer.irqEnable then (signal 0 s).pic else s.pic := by
  rw [fire_eq]
  simp [signal]

theorem timerTick_of_idle {s : State} (hidle : s.timer.enabled = false ∨ s.timer.period = 0) :
    timerTick s = s := if_pos hidle
theorem timerTick_of_count_eq_zero {s : State} (hidle : ¬(s.timer.enabled = false ∨ s.timer.period = 0))
    (hcount : s.timer.count = 0) : timerTick s = fire s := by
  rw [timerTick, if_neg hidle, if_pos hcount]
theorem timerTick_of_count_ne_zero {s : State} (hidle : ¬(s.timer.enabled = false ∨ s.timer.period = 0))
    (hcount : s.timer.count ≠ 0) :
    timerTick s = s.setTimer { s.timer with count := s.timer.count - 1 } := by
  rw [timerTick, if_neg hidle, if_neg hcount]

@[simp] theorem timerTick_cycles (s : State) : (timerTick s).cycles = s.cycles := by
  rcases timerTick_cases s with ⟨-, e⟩ | ⟨-, -, -, e⟩ | ⟨-, -, -, e⟩ <;> simp [e]
@[simp] theorem timerTick_metrics (s : State) : (timerTick s).metrics = s.metrics := by
  rcases timerTick_cases s with ⟨-, e⟩ | ⟨-, -, -, e⟩ | ⟨-, -, -, e⟩ <;> simp [e]
@[simp] theorem timerTick_config (s : State) : (timerTick s).config = s.config := by
  rcases timerTick_cases s with ⟨-, e⟩ | ⟨-, -, -, e⟩ | ⟨-, -, -, e⟩ <;> simp [e]
@[simp] theorem timerTick_inputs (s : State) : (timerTick s).inputs = s.inputs := by
  rcases timerTick_cases s with ⟨-, e⟩ | ⟨-, -, -, e⟩ | ⟨-, -, -, e⟩ <;> simp [e]
@[simp] theorem timerTick_maskBits (s : State) : (timerTick s).pic.maskBits = s.pic.maskBits := by
  rcases timerTick_cases s with ⟨-, e⟩ | ⟨-, -, -, e⟩ | ⟨-, -, -, e⟩
  case inr.inl =>
    rw [e, fire_pic]
    split <;> simp
  all_goals simp [e]

/-- The Clock advances, then exactly one arm is taken: idle, firing or counting (R89, R90). -/
theorem tickBlock_cases (s : State) :
    ((s.timer.enabled = false ∨ s.timer.period = 0) ∧ tickBlock s = s.setCycles (s.cycles + 1)) ∨
    (s.timer.enabled = true ∧ s.timer.period ≠ 0 ∧ s.timer.count = 0 ∧
      tickBlock s = fire (s.setCycles (s.cycles + 1))) ∨
    (s.timer.enabled = true ∧ s.timer.period ≠ 0 ∧ s.timer.count ≠ 0 ∧
      tickBlock s = (s.setCycles (s.cycles + 1)).setTimer { s.timer with count := s.timer.count - 1 }) :=
  timerTick_cases (s.setCycles (s.cycles + 1))

@[simp] theorem tickBlock_cycles (s : State) : (tickBlock s).cycles = s.cycles + 1 := by simp [tickBlock]
@[simp] theorem tickBlock_metrics (s : State) : (tickBlock s).metrics = s.metrics := by simp [tickBlock]
@[simp] theorem tickBlock_config (s : State) : (tickBlock s).config = s.config := by simp [tickBlock]
@[simp] theorem tickBlock_inputs (s : State) : (tickBlock s).inputs = s.inputs := by simp [tickBlock]
@[simp] theorem tickBlock_maskBits (s : State) : (tickBlock s).pic.maskBits = s.pic.maskBits := by
  simp [tickBlock]

@[simp] theorem perform_config (a : Action) (s : State) : (a.perform s).config = s.config := by
  cases a <;> simp [Action.perform]
@[simp] theorem perform_inputs (a : Action) (s : State) : (a.perform s).inputs = s.inputs := by
  cases a <;> simp [Action.perform]

end Sys2Proof.Machine

/-! What an action does to the requests, the firing cycles and the statistics (R105, R109, R113). -/

namespace Sys2Proof.Machine

/-- A vector operand names vector `v` exactly when it is that number's word (R66). -/
theorem vectorInRange_signedVector (vec : Word) (v : VectorIx) :
    vectorInRange (signedVector vec) = some v ↔ vec = BitVec.ofNat 32 v := by
  have hv : (BitVec.ofNat 32 v.val).toInt = v.val := by
    have := v.isLt
    rw [BitVec.toInt_eq_toNat_of_lt] <;> rw [BitVec.toNat_ofNat] <;> omega
  rw [vectorInRange_eq_some, signedVector, ← hv, BitVec.toInt_inj]

theorem signal_lec (vec : Int) (s : State) (w : VectorIx) :
    (signal vec s).pic.lec[w] = if vectorInRange vec = some w then s.cycles else s.pic.lec[w] := by
  rcases signal_cases vec s with ⟨hv, e⟩ | ⟨v, hv, e⟩
  · simp [e, hv]
  · simp [e, hv, Vector.getElem_set, Fin.ext_iff]

theorem signal_pendingBits (vec : Int) (s : State) (w : VectorIx) :
    (signal vec s).pic.pendingBits.getLsbD w =
      (s.pic.pendingBits.getLsbD w || decide (vectorInRange vec = some w)) := by
  rcases signal_cases vec s with ⟨hv, e⟩ | ⟨v, hv, e⟩
  · simp [e, hv]
  · rw [e, setPending_getLsbD]
    simp [hv, Fin.ext_iff, eq_comm]

theorem acknowledgeVector_lec (v : VectorIx) (s : State) (w : VectorIx) :
    (acknowledgeVector v s).pic.lec[w] = if v = w then 0 else s.pic.lec[w] := by
  by_cases hvw : v = w
  · rw [if_pos hvw, ← hvw]
    exact acknowledgeVector_lec_self v s
  · have hne : v.val ≠ w.val := fun h => hvw (Fin.ext h)
    rcases acknowledgeVector_cases v s with ⟨-, e⟩ | ⟨-, e⟩ <;> simp [e, dropRequest, hvw, hne]

theorem acknowledgeVector_pendingBits (v : VectorIx) (s : State) :
    (acknowledgeVector v s).pic.pendingBits = clearPending s.pic.pendingBits v := by
  rcases acknowledgeVector_cases v s with ⟨-, e⟩ | ⟨-, e⟩ <;> simp [e, dropRequest]

/-- An acknowledgment leaves every firing cycle, or consumes it (R110). -/
theorem acknowledge_lec_cases (vec : Int) (s : State) (w : VectorIx) :
    (acknowledge vec s).pic.lec[w] = s.pic.lec[w] ∨ (acknowledge vec s).pic.lec[w] = 0 := by
  rcases acknowledge_cases vec s with ⟨-, e⟩ | ⟨v, -, e⟩
  · exact .inl (by rw [e])
  · rw [e, acknowledgeVector_lec]
    split
    · exact .inr rfl
    · exact .inl rfl

/-- An acknowledgment raises no request (R109). -/
theorem pending_of_acknowledge {vec : Int} {s : State} {w : VectorIx}
    (h : (acknowledge vec s).pic.pendingBits.getLsbD w = true) : s.pic.pendingBits.getLsbD w = true := by
  rcases acknowledge_cases vec s with ⟨-, e⟩ | ⟨v, -, e⟩
  · rwa [e] at h
  · rw [e, acknowledgeVector_pendingBits, clearPending_getLsbD _ _ _ w.isLt] at h
    exact (Bool.and_eq_true_iff.mp h).1

/-- A register write raises no request (R112 to R115). -/
theorem pending_of_writeReg {s : State} {r : Reg} {w : Word} {v : VectorIx}
    (h : (writeReg s r w).pic.pendingBits.getLsbD v = true) : s.pic.pendingBits.getLsbD v = true := by
  rcases r with r | _ | _ | _ | _
  case pic.pending =>
    rw [writeReg_pending, State.setPic_pic, writeOneToClear_getLsbD _ _ _ v.isLt] at h
    exact (Bool.and_eq_true_iff.mp h).1
  case pic.eoi => exact pending_of_acknowledge h
  all_goals exact h

/-- An entry is left as it was, or the sample of its recorded firing is folded and the firing consumed: all
that may happen to the statistics of vector `v` between `s` and `t` (R109, R110, R125). -/
def KeepsOrFolds (s t : State) (v : VectorIx) : Prop :=
  entry t.metrics v = entry s.metrics v ∨
    (entry t.metrics v = foldSample binary64Ops (entry s.metrics v) (s.cycles - s.pic.lec[v]) ∧
      s.pic.lec[v] ≠ 0 ∧ t.pic.lec[v] = 0)

theorem acknowledgeVector_keepsOrFolds (w : VectorIx) (s : State) (v : VectorIx) :
    KeepsOrFolds s (acknowledgeVector w s) v := by
  rcases acknowledgeVector_cases w s with ⟨-, e⟩ | ⟨hlec, e⟩
  · exact .inl (by rw [e, State.setPic_metrics])
  · have hentry : entry (acknowledgeVector w s).metrics v = if w = v then
        foldSample binary64Ops (entry s.metrics w) (s.cycles - s.pic.lec[w]) else entry s.metrics v := by
      rw [e]
      exact entry_statsUpdate _ _ _ _
    by_cases hwv : w = v
    · subst hwv
      exact .inr ⟨by rw [hentry, if_pos rfl], hlec, acknowledgeVector_lec_self w s⟩
    · exact .inl (by rw [hentry, if_neg hwv])

theorem acknowledge_keepsOrFolds (vec : Int) (s : State) (v : VectorIx) :
    KeepsOrFolds s (acknowledge vec s) v := by
  rcases acknowledge_cases vec s with ⟨-, e⟩ | ⟨w, -, e⟩
  · exact .inl (by rw [e])
  · rw [e]
    exact acknowledgeVector_keepsOrFolds w s v

theorem writeReg_keepsOrFolds (s : State) (r : Reg) (w : Word) (v : VectorIx) :
    KeepsOrFolds s (writeReg s r w) v := by
  rcases r with r | _ | _ | _ | _
  case pic.eoi => exact acknowledge_keepsOrFolds _ s v
  all_goals exact .inl rfl

end Sys2Proof.Machine

/-! The Clock bounds (R18, R23), kept by each action. -/

namespace Sys2Proof.Machine

theorem reset_clockBounds {s : State} (htimer : s.timer = Timer.reset) (hpic : s.pic = Pic.reset) :
    ClockBounds s := by
  refine ⟨?_, fun v => ?_⟩
  · simp [htimer, Timer.reset]
  · simp [hpic, Pic.reset]

/-- The bounds carry over to a state whose Clock and counter are as before and whose firing cycles are as
before, consumed, or recorded now. -/
theorem clockBounds_of_lec {s t : State} (hs : ClockBounds s) (hcycles : t.cycles = s.cycles)
    (hevents : t.timer.eventsGenerated = s.timer.eventsGenerated)
    (hlec : ∀ v : VectorIx, t.pic.lec[v] = s.pic.lec[v] ∨ t.pic.lec[v] = 0 ∨ t.pic.lec[v] = s.cycles) :
    ClockBounds t := by
  obtain ⟨hev, hl⟩ := hs
  refine ⟨by rw [hevents, hcycles]; exact hev, fun v => ?_⟩
  rw [hcycles]
  rcases hlec v with h | h | h <;> rw [h]
  · exact hl v
  · exact Nat.zero_le _

theorem signal_lec_cases (vec : Int) (s : State) (v : VectorIx) :
    (signal vec s).pic.lec[v] = s.pic.lec[v] ∨ (signal vec s).pic.lec[v] = s.cycles := by
  rw [signal_lec]
  split
  · exact .inr rfl
  · exact .inl rfl

theorem signal_clockBounds {s : State} (hs : ClockBounds s) (vec : Int) : ClockBounds (signal vec s) :=
  clockBounds_of_lec hs (by simp) (by simp) fun v => (signal_lec_cases vec s v).imp_right .inr

theorem acknowledge_clockBounds {s : State} (hs : ClockBounds s) (vec : Int) :
    ClockBounds (acknowledge vec s) :=
  clockBounds_of_lec hs (by simp) (by simp) fun v => (acknowledge_lec_cases vec s v).imp_right .inl

theorem writeReg_clockBounds {s : State} (hs : ClockBounds s) (r : Reg) (w : Word) :
    ClockBounds (writeReg s r w) := by
  refine clockBounds_of_lec hs (writeReg_cycles s r w) (writeReg_eventsGenerated s r w) fun v => ?_
  rcases r with r | _ | _ | _ | _
  case pic.eoi => exact (acknowledge_lec_cases _ s v).imp_right .inl
  all_goals exact .inl rfl

/-- The timer runs after the Clock has advanced, so a fire finds the counter strictly behind (R89, R92). -/
theorem fire_clockBounds {s : State} (hs : ClockBounds s)
    (hlt : s.timer.eventsGenerated.toNat < s.cycles.toNat) : ClockBounds (fire s) := by
  refine ⟨?_, fun v => ?_⟩
  · rw [fire_eventsGenerated, fire_cycles]
    bv_omega
  · rw [fire_cycles, fire_pic]
    split
    · have := (signal_clockBounds hs 0).2 v
      rwa [signal_cycles] at this
    · exact hs.2 v

theorem tickBlock_clockBounds {s : State} (hs : ClockBounds s) (hwrap : s.cycles.toNat + 1 < 2 ^ 64) :
    ClockBounds (tickBlock s) := by
  obtain ⟨hev, hl⟩ := hs
  have hc : (s.cycles + 1).toNat = s.cycles.toNat + 1 := by bv_omega
  have hadvanced : ClockBounds (s.setCycles (s.cycles + 1)) := by
    refine ⟨?_, fun v => ?_⟩
    · rw [State.setCycles_timer, State.setCycles_cycles, hc]
      exact hev.trans (Nat.le_succ _)
    · rw [State.setCycles_pic, State.setCycles_cycles, hc]
      exact (hl v).trans (Nat.le_succ _)
  rcases tickBlock_cases s with ⟨-, e⟩ | ⟨-, -, -, e⟩ | ⟨-, -, -, e⟩ <;> rw [e]
  · exact hadvanced
  · refine fire_clockBounds hadvanced ?_
    rw [State.setCycles_timer, State.setCycles_cycles, hc]
    exact Nat.lt_succ_of_le hev
  · exact hadvanced

theorem perform_clockBounds {s : State} (hs : ClockBounds s) (hwrap : s.cycles.toNat + 1 < 2 ^ 64)
    (a : Action) : ClockBounds (a.perform s) := by
  cases a with
  | idle => exact hs
  | tick => exact tickBlock_clockBounds hs hwrap
  | reset => exact reset_clockBounds rfl rfl
  | signal vec => exact signal_clockBounds hs vec
  | acknowledge vec => exact acknowledge_clockBounds hs vec
  | write r w => exact writeReg_clockBounds hs r w

/-- Settles O54: the bounds speak neither of the presentations nor of the response, and every action keeps
them. -/
theorem everyStepKeepsTheClockBounds : Obligations.EveryStepKeepsTheClockBounds := by
  unfold Obligations.EveryStepKeepsTheClockBounds
  intro s t hs hwrap hstep
  obtain ⟨a, r, rfl⟩ := step_cases hstep
  exact perform_clockBounds (s := s.setInputs s.inputs.tail) hs hwrap a

/-- Settles O55: every counter and firing cycle is 0. -/
theorem resetMeetsTheClockBounds : Obligations.ResetMeetsTheClockBounds :=
  reset_clockBounds rfl rfl

end Sys2Proof.Machine

/-! The event counter is returned by nothing (R18, R38, R138): every action commutes with replacing it. -/

namespace Sys2Proof.Machine

/-- The state with another event count. -/
def State.withEvents (s : State) (e : DWord) : State :=
  { s with timer := { s.timer with eventsGenerated := e } }

@[simp] theorem State.withEvents_cycles (s : State) (e : DWord) : (s.withEvents e).cycles = s.cycles := rfl
@[simp] theorem State.withEvents_pic (s : State) (e : DWord) : (s.withEvents e).pic = s.pic := rfl
@[simp] theorem State.withEvents_metrics (s : State) (e : DWord) : (s.withEvents e).metrics = s.metrics := rfl
@[simp] theorem State.withEvents_config (s : State) (e : DWord) : (s.withEvents e).config = s.config := rfl
@[simp] theorem readReg_withEvents (s : State) (e : DWord) (r : Reg) :
    readReg (s.withEvents e) r = readReg s r := by
  rcases r with (_ | _ | _ | _) | r <;> rfl

@[simp] theorem regRead32_withEvents (s : State) (e : DWord) (addr : Word) :
    regRead32 (s.withEvents e) addr = regRead32 s addr := by
  simp [regRead32]

theorem actionOf_withEvents (s : State) (e : DWord) (i : Instr) :
    actionOf (s.withEvents e) i = actionOf s i := by
  cases i with
  | write8 a b => simp
  | write16 a h => simp
  | _ => rfl

theorem answerOf_withEvents (s : State) (e : DWord) (i : Instr) :
    answerOf (s.withEvents e) i = answerOf s i := by
  cases i with
  | read8 a => simp [byteAt]
  | read16 a => simp [halfAt]
  | _ => rfl

theorem signal_withEvents (vec : Int) (s : State) (e : DWord) :
    signal vec (s.withEvents e) = (signal vec s).withEvents e := by
  unfold signal
  split <;> rfl

theorem acknowledge_withEvents (vec : Int) (s : State) (e : DWord) :
    acknowledge vec (s.withEvents e) = (acknowledge vec s).withEvents e := by
  unfold acknowledge acknowledgeVector
  split
  · rfl
  · rw [State.withEvents_pic]
    split <;> rfl

theorem writeReg_withEvents (s : State) (e : DWord) (r : Reg) (w : Word) :
    writeReg (s.withEvents e) r w = (writeReg s r w).withEvents e := by
  rcases r with (_ | _ | _ | _) | (_ | _ | _ | _)
  case pic.eoi => exact acknowledge_withEvents _ s e
  all_goals rfl

theorem fire_withEvents (s : State) (e : DWord) : fire (s.withEvents e) = (fire s).withEvents (e + 1) := by
  rw [fire_eq, fire_eq]
  rfl

/-- The arm that the timer takes does not depend on the event count; only a fire changes it (R90, R92). -/
theorem timerTick_withEvents (s : State) (e : DWord) :
    ∃ e', timerTick (s.withEvents e) = (timerTick s).withEvents e' := by
  by_cases hidle : s.timer.enabled = false ∨ s.timer.period = 0
  · refine ⟨e, ?_⟩
    rw [timerTick_of_idle hidle, timerTick_of_idle (s := s.withEvents e) hidle]
  · by_cases hcount : s.timer.count = 0
    · refine ⟨e + 1, ?_⟩
      rw [timerTick_of_count_eq_zero hidle hcount,
        timerTick_of_count_eq_zero (s := s.withEvents e) hidle hcount, fire_withEvents]
    · refine ⟨e, ?_⟩
      rw [timerTick_of_count_ne_zero hidle hcount,
        timerTick_of_count_ne_zero (s := s.withEvents e) hidle hcount]
      rfl

theorem perform_withEvents (a : Action) (s : State) (e : DWord) :
    ∃ e', a.perform (s.withEvents e) = (a.perform s).withEvents e' := by
  cases a with
  | idle => exact ⟨e, rfl⟩
  | tick => exact timerTick_withEvents (s.setCycles (s.cycles + 1)) e
  | reset => exact ⟨0, rfl⟩
  | signal vec => exact ⟨e, signal_withEvents vec s e⟩
  | acknowledge vec => exact ⟨e, acknowledge_withEvents vec s e⟩
  | write r w => exact ⟨e, writeReg_withEvents s e r w⟩

/-- Settles O53: with another event count an operation has the same action and the same response. -/
theorem eventCountIsUnobservable : Obligations.EventCountIsUnobservable := by
  unfold Obligations.EventCountIsUnobservable
  intro i s e
  obtain ⟨e', hperform⟩ := perform_withEvents (actionOf s i) s e
  refine ⟨_, e', exec_eq i s, ?_⟩
  change exec i (s.withEvents e) = _
  rw [exec_eq, actionOf_withEvents, answerOf_withEvents, hperform]
  rfl

end Sys2Proof.Machine

/-! Rules about the whole machine: each splits the six actions an operation can perform. -/

namespace Sys2Proof.Machine

/-- Settles O27: only an acknowledgment, by ACK_IRQ or by a write to EOI, touches the statistics. -/
theorem oneSamplePerRecordedFiring : Obligations.OneSamplePerRecordedFiring := by
  unfold Obligations.OneSamplePerRecordedFiring
  intro i s v hreset
  obtain ⟨a, r, hdoes, he⟩ := exec_cases i s
  refine ⟨_, he, ?_⟩
  change KeepsOrFolds s (a.perform s) v
  cases hdoes with
  | idle => exact .inl rfl
  | tick => exact .inl (congrArg (entry · v) (tickBlock_metrics s))
  | reset hi => exact absurd hi hreset
  | signal vec => exact .inl (congrArg (entry · v) (signal_metrics _ s))
  | acknowledge vec => exact acknowledge_keepsOrFolds vec s v
  | write r w => exact writeReg_keepsOrFolds s r w v

/-- A tick leaves STATUS, or sets its fired flag (R91 to R93). -/
theorem tickBlock_status_cases (s : State) :
    (tickBlock s).timer.status = s.timer.status ∨
      (tickBlock s).timer.status = setFired s.timer.status := by
  rcases tickBlock_cases s with ⟨-, e⟩ | ⟨-, -, -, e⟩ | ⟨-, -, -, e⟩ <;> rw [e]
  · exact .inl rfl
  · exact .inr (fire_status _)
  · exact .inl rfl

/-- Settles O49: of the actions left, only a tick touches STATUS, and it sets a bit. -/
theorem statusIsClearedOnlyByStatusWrites : Obligations.StatusIsClearedOnlyByStatusWrites := by
  unfold Obligations.StatusIsClearedOnlyByStatusWrites
  intro i s hreset hword hbyte hhalf
  obtain ⟨a, r, hdoes, he⟩ := exec_cases i s
  refine ⟨_, he, fun j _ hj => ?_⟩
  rw [State.respond_timer]
  cases hdoes with
  | idle => exact hj
  | tick =>
    rcases tickBlock_status_cases s with h | h <;> simp [Action.perform, h, setFired_getLsbD, hj]
  | reset hi => exact absurd hi hreset
  | signal vec => simpa [Action.perform] using hj
  | acknowledge vec => simpa [Action.perform] using hj
  | write r w hi =>
    have hr : r ≠ .timer .status := by
      rintro rfl
      cases hi with
      | word w => exact hword w rfl
      | byte a b h => exact hbyte a b rfl h
      | half a x h => exact hhalf a x rfl h
    rw [Action.perform, writeReg_status_of_ne hr]
    exact hj

/-- Settles O51: of the actions left, none writes the mask. -/
theorem onlyMaskWritesChangeTheMask : Obligations.OnlyMaskWritesChangeTheMask := by
  unfold Obligations.OnlyMaskWritesChangeTheMask
  intro i s hreset hword hbyte hhalf
  obtain ⟨a, r, hdoes, he⟩ := exec_cases i s
  refine ⟨_, he, ?_⟩
  rw [State.respond_pic]
  cases hdoes with
  | idle => rfl
  | tick => exact tickBlock_maskBits s
  | reset hi => exact absurd hi hreset
  | signal vec => exact signal_maskBits _ s
  | acknowledge vec => exact acknowledge_maskBits vec s
  | write r w hi =>
    have hr : r ≠ .pic .mask := by
      rintro rfl
      cases hi with
      | word w => exact hword w rfl
      | byte a b h => exact hbyte a b rfl h
      | half a x h => exact hhalf a x rfl h
    exact writeReg_maskBits_of_ne hr s w

/-- A tick raises a request only for vector 0, when the timer fires with `irq_enable` set (R92). -/
theorem tickBlock_raises {s : State} {v : VectorIx} (h0 : s.pic.pendingBits.getLsbD v = false)
    (h1 : (tickBlock s).pic.pendingBits.getLsbD v = true) :
    v = 0 ∧ s.timer.enabled = true ∧ s.timer.irqEnable = true ∧
      s.timer.period ≠ 0 ∧ s.timer.count = 0 := by
  rcases tickBlock_cases s with ⟨-, e⟩ | ⟨henabled, hperiod, hcount, e⟩ | ⟨-, -, -, e⟩ <;> rw [e] at h1
  · exact absurd h1 (Bool.eq_false_iff.mp h0)
  · rw [fire_pic] at h1
    split at h1
    next hirq =>
      rw [signal_pendingBits, State.setCycles_pic, h0, Bool.false_or, decide_eq_true_eq,
        vectorInRange_zero, Option.some.injEq] at h1
      exact ⟨h1.symm, henabled, hirq, hperiod, hcount⟩
    next => exact absurd h1 (Bool.eq_false_iff.mp h0)
  · exact absurd h1 (Bool.eq_false_iff.mp h0)

/-- Settles O50: acknowledgments and register writes only clear requests, and reset clears them all. -/
theorem onlySignalAndFireRaiseRequests : Obligations.OnlySignalAndFireRaiseRequests := by
  unfold Obligations.OnlySignalAndFireRaiseRequests
  intro i s t v hexec h0 h1
  obtain ⟨a, r, hdoes, he⟩ := exec_cases i s
  cases he.symm.trans hexec
  rw [State.respond_pic] at h1
  have hnot : s.pic.pendingBits.getLsbD v ≠ true := Bool.eq_false_iff.mp h0
  cases hdoes with
  | idle => exact absurd h1 hnot
  | tick hi => exact .inr ⟨hi, tickBlock_raises h0 h1⟩
  | reset => simp [Action.perform, Pic.reset] at h1
  | signal vec hi =>
    rw [Action.perform, signal_pendingBits, h0, Bool.false_or, decide_eq_true_eq,
      vectorInRange_signedVector] at h1
    exact .inl (h1 ▸ hi)
  | acknowledge vec => exact absurd (pending_of_acknowledge h1) hnot
  | write r w => exact absurd (pending_of_writeReg h1) hnot

/-- Settles O11: no action touches the bases or the presentations. -/
theorem stepKeepsParametersAndTakesOneInput : Obligations.StepKeepsParametersAndTakesOneInput := by
  unfold Obligations.StepKeepsParametersAndTakesOneInput
  intro s t hstep
  obtain ⟨a, r, rfl⟩ := step_cases hstep
  simp

/-- Settles O45: of the six actions only a tick and a reset touch the Clock. -/
theorem globalCyclesCountTicks : Obligations.GlobalCyclesCountTicks := by
  unfold Obligations.GlobalCyclesCountTicks
  refine ⟨rfl, fun s =>
    ⟨rfl, ⟨_, rfl, tickBlock_cycles s⟩, ⟨_, rfl, rfl⟩, fun i htick hreset => ?_⟩⟩
  obtain ⟨a, r, hdoes, he⟩ := exec_cases i s
  refine ⟨_, he, ?_⟩
  rw [State.respond_cycles]
  cases hdoes with
  | idle => rfl
  | tick hi => exact absurd hi htick
  | reset hi => exact absurd hi hreset
  | signal vec => exact signal_cycles _ s
  | acknowledge vec => exact acknowledge_cycles vec s
  | write r w => exact writeReg_cycles s r w

end Sys2Proof.Machine

/-! The reset state (R39), and words written out from the encodings (R60, R61). -/

namespace Sys2Proof.Machine

theorem entry_reset (v : VectorIx) : entry Metrics.reset v = emptyAcc binary64Ops := by
  simp [entry, Metrics.reset, emptyAcc, binary64Ops, Binary64.zero]

theorem readReg_reset (r : Reg) : readReg State.reset r = 0 := by
  rcases r with (_ | _ | _ | _) | (_ | _ | _ | _) <;> rfl

/-- An empty entry has no sample and variance 0 (R129, R130). -/
theorem statsResponse_reset (v : VectorIx) :
    statsResponse Metrics.reset (signedVector (BitVec.ofNat 32 v)) = .stats 0 0 0 := by
  have hv := (vectorInRange_signedVector (BitVec.ofNat 32 v) v).mpr rfl
  have hvariance : variance Metrics.reset v = 0 := by
    rw [variance, entry_reset]
    rfl
  simp only [statsResponse, hv, hvariance]
  simp [Metrics.reset]

theorem irqLine_reset : irqLine State.reset = .irq false 0 := by decide

/-- Settles O47: at the reset state the queries have no action, and their responses are computed. -/
theorem resetStateAnswersZero : Obligations.ResetStateAnswersZero := by
  unfold Obligations.ResetStateAnswersZero
  have hanswer (i : Instr) (hi : actionOf State.reset i = .idle) (r : Response)
      (hr : answerOf State.reset i = r) : exec i State.reset = .next { State.reset with response := r } := by
    rw [exec_eq, hi, hr]
    rfl
  exact ⟨⟨rfl, rfl, rfl, rfl⟩, readReg_reset, hanswer _ rfl _ irqLine_reset, hanswer _ rfl _ rfl,
    fun v => hanswer _ rfl _ (statsResponse_reset v)⟩

/-- Settles O57: nothing is presented, and every element of the PIC and the Collector is 0. -/
theorem resetMeetsThePublicContract : Obligations.ResetMeetsThePublicContract := by
  refine ⟨fun c hc => absurd hc List.not_mem_nil, fun v _ => ⟨?_, ?_, entry_reset v⟩⟩
  · simp [isPending, State.reset, Pic.reset]
  · simp [State.reset, Pic.reset]

/-- Settles O5: the decoder computes on each of the six words. -/
theorem wordsWrittenOutDecode : Obligations.WordsWrittenOutDecode := by
  unfold Obligations.WordsWrittenOutDecode
  decide

end Sys2Proof.Machine

/-! The address map and the memory image (R28, R41 to R47): where the registers stand, which accesses reach
none of them, and the bytes a stored word is read back as. -/

namespace Sys2Proof.Machine

/-! A 32-bit access reaches the register whose address it names, and no other (R28, R46). -/

theorem timerReg_eq_some {off : Byte} {r : TimerReg} : timerReg off = some r ↔ off = timerOffset r := by
  refine ⟨fun h => ?_, fun h => h ▸ timerReg_timerOffset r⟩
  simp only [timerReg] at h
  split_ifs at h <;> cases h <;> assumption

theorem picReg_eq_some {off : Byte} {r : PicReg} : picReg off = some r ↔ off = picOffset r := by
  refine ⟨fun h => ?_, fun h => h ▸ picReg_picOffset r⟩
  simp only [picReg] at h
  split_ifs at h <;> cases h <;> assumption

theorem windowAddr_windowOffset {base addr : Word} (h : inWindow base addr = true) :
    windowAddr base (windowOffset base addr) = addr := by
  have hin := (inWindow_iff base addr).mp h
  have hoff := windowOffset_toNat h
  have hlt := addr.isLt
  apply BitVec.eq_of_toNat_eq
  rw [windowAddr, BitVec.toNat_add, BitVec.toNat_setWidth, hoff]
  omega

/-- What the window decode can answer, each answer with the address it is for (R41). -/
theorem decodeAddr_cases (cfg : Config) (addr : Word) :
    (∃ off, decodeAddr cfg addr = .timer off ∧ windowAddr cfg.timerBase off = addr) ∨
    (∃ off, decodeAddr cfg addr = .pic off ∧ windowAddr cfg.picBase off = addr) ∨
    decodeAddr cfg addr = .unmapped := by
  unfold decodeAddr
  split_ifs with htimer hpic
  · exact .inl ⟨_, rfl, windowAddr_windowOffset htimer⟩
  · exact .inr (.inl ⟨_, rfl, windowAddr_windowOffset hpic⟩)
  · exact .inr (.inr rfl)

theorem eq_regAddr_of_regAt {cfg : Config} {addr : Word} {r : Reg} (h : regAt cfg addr = some r) :
    addr = regAddr cfg r := by
  unfold regAt at h
  rcases decodeAddr_cases cfg addr with ⟨off, e, haddr⟩ | ⟨off, e, haddr⟩ | e <;> rw [e] at h
  · obtain ⟨r', hr', rfl⟩ := Option.map_eq_some_iff.mp h
    rw [← haddr, timerReg_eq_some.mp hr', regAddr]
  · obtain ⟨r', hr', rfl⟩ := Option.map_eq_some_iff.mp h
    rw [← haddr, picReg_eq_some.mp hr', regAddr]
  · cases h

theorem regAt_eq_some {cfg : Config} (hwf : cfg.WF) {addr : Word} {r : Reg} :
    regAt cfg addr = some r ↔ addr = regAddr cfg r :=
  ⟨eq_regAddr_of_regAt, fun h => h ▸ regAt_regAddr hwf r⟩

theorem regAddr_timer_toNat {cfg : Config} (hwf : cfg.WF) (r : TimerReg) :
    (regAddr cfg (.timer r)).toNat = cfg.timerBase.toNat + (timerOffset r).toNat := by
  obtain ⟨-, -, -, htimer, -⟩ := hwf
  exact windowAddr_toNat htimer _

theorem regAddr_pic_toNat {cfg : Config} (hwf : cfg.WF) (r : PicReg) :
    (regAddr cfg (.pic r)).toNat = cfg.picBase.toNat + (picOffset r).toNat := by
  obtain ⟨-, -, -, -, hpic⟩ := hwf
  exact windowAddr_toNat hpic _

/-- Registers are words: the bases and the offsets are multiples of 4 (R7, R28). -/
theorem regAddr_mod_four {cfg : Config} (hwf : cfg.WF) (r : Reg) : (regAddr cfg r).toNat % 4 = 0 := by
  have ⟨htimer, hpic, _⟩ := hwf
  simp only [Config.windowSize] at htimer hpic
  cases r with
  | timer r =>
    have hoff : (timerOffset r).toNat % 4 = 0 := by cases r <;> rfl
    rw [regAddr_timer_toNat hwf]
    omega
  | pic r =>
    have hoff : (picOffset r).toNat % 4 = 0 := by cases r <;> rfl
    rw [regAddr_pic_toNat hwf]
    omega

/-! The containing word and the lane of an address (R45, R47). -/

/-- The mask of R47 clears the two low bits. -/
theorem containingWord_eq_shift (addr : Word) : containingWord addr = addr >>> 2 <<< 2 := by
  have hmask : ∀ i < 32, (0xFFFFFFFC#32).getLsbD i = !decide (i < 2) := by decide
  apply BitVec.eq_of_getLsbD_eq
  intro i hi
  rw [containingWord, BitVec.getLsbD_and, hmask i hi, BitVec.getLsbD_shiftLeft, BitVec.getLsbD_ushiftRight]
  by_cases hlow : i < 2
  · simp [hlow]
  · have hsub : 2 + (i - 2) = i := by omega
    simp [hlow, hsub, hi]

theorem containingWord_toNat (addr : Word) : (containingWord addr).toNat = addr.toNat - addr.toNat % 4 := by
  have hlt := addr.isLt
  rw [containingWord_eq_shift, BitVec.toNat_shiftLeft, BitVec.toNat_ushiftRight, Nat.shiftLeft_eq,
    Nat.shiftRight_eq_div_pow]
  omega

theorem laneShift_eq (addr : Word) : laneShift addr = 8 * (addr.toNat % 4) := by
  simp [laneShift]

/-- `extract8` takes the byte of the address's lane, little-endian (R45, R67). -/
theorem extract8_toNat (w addr : Word) :
    (extract8 w addr).toNat = w.toNat / 256 ^ (addr.toNat % 4) % 256 := by
  rw [extract8, BitVec.toNat_setWidth, BitVec.toNat_ushiftRight, Nat.shiftRight_eq_div_pow, laneShift_eq,
    Nat.pow_mul]

/-- The containing word of an address is a register's exactly when the address is one of its four bytes. -/
theorem containingWord_eq_regAddr {cfg : Config} (hwf : cfg.WF) {addr : Word} {r : Reg} :
    containingWord addr = regAddr cfg r ↔ addr.toNat = (regAddr cfg r).toNat + addr.toNat % 4 := by
  have hmod := regAddr_mod_four hwf r
  rw [← BitVec.toNat_inj, containingWord_toNat]
  omega

/-! The accesses the decoder selects for an address are those of the address map (R80, R81). -/

theorem exec_decodeRead32 (s : State) (addr : Word) :
    exec (decodeRead32 s.config addr) s = .next (s.respond (.rdata32 (regRead32 s addr))) := by
  unfold decodeRead32 regRead32 regAt
  cases decodeAddr s.config addr with
  | timer off =>
    dsimp only
    cases timerReg off with
    | none => rfl
    | some r => cases r <;> rfl
  | pic off =>
    dsimp only
    cases picReg off with
    | none => rfl
    | some r => cases r <;> rfl
  | unmapped => rfl

theorem exec_decodeWrite32 (s : State) (addr w : Word) :
    exec (decodeWrite32 s.config addr w) s = .next ((regWrite32 s addr w).respond .nothing) := by
  unfold decodeWrite32 regWrite32 regAt
  cases decodeAddr s.config addr with
  | timer off =>
    dsimp only
    cases timerReg off with
    | none => rfl
    | some r => cases r <;> rfl
  | pic off =>
    dsimp only
    cases picReg off with
    | none => rfl
    | some r => cases r <;> rfl
  | unmapped => rfl

/-! Accesses without effect (R42, R43, R46, R115). -/

/-- No register stands at the address, or PRIORITY does, which reads 0 and ignores writes (R36, R115). -/
def Unbacked (cfg : Config) (addr : Word) : Prop := ∀ r, regAt cfg addr = some r → r = .pic .priority

theorem regRead32_of_unbacked {s : State} {addr : Word} (h : Unbacked s.config addr) :
    regRead32 s addr = 0 := by
  unfold regRead32
  cases hr : regAt s.config addr with
  | none => rfl
  | some r => exact (h r hr) ▸ rfl

theorem regWrite32_of_unbacked {s : State} {addr : Word} (h : Unbacked s.config addr) (w : Word) :
    regWrite32 s addr w = s := by
  unfold regWrite32
  cases hr : regAt s.config addr with
  | none => rfl
  | some r => exact (h r hr) ▸ rfl

theorem exec_decodeRead32_of_unbacked {s : State} {addr : Word} (h : Unbacked s.config addr) :
    exec (decodeRead32 s.config addr) s = .next { s with response := .rdata32 0 } := by
  rw [exec_decodeRead32, regRead32_of_unbacked h]
  rfl

theorem exec_decodeWrite32_of_unbacked {s : State} {addr : Word} (h : Unbacked s.config addr) (w : Word) :
    exec (decodeWrite32 s.config addr w) s = .next { s with response := .nothing } := by
  rw [exec_decodeWrite32, regWrite32_of_unbacked h]
  rfl

theorem exec_read8_of_unbacked {s : State} {addr : Word} (h : Unbacked s.config (containingWord addr)) :
    exec (.read8 addr) s = .next { s with response := .rdata8 0 } := by
  have hbyte : byteAt s addr = 0 := by simp [byteAt, regRead32_of_unbacked h, extract8]
  rw [exec_eq, answerOf_read8, hbyte]
  rfl

theorem exec_read16_of_unbacked {s : State} {addr : Word} (h : Unbacked s.config (containingWord addr)) :
    exec (.read16 addr) s = .next { s with response := .rdata16 0 } := by
  have hhalf : halfAt s addr = 0 := by simp [halfAt, regRead32_of_unbacked h, extract16]
  rw [exec_eq, answerOf_read16, hhalf]
  rfl

theorem exec_write8_of_unbacked {s : State} {addr : Word} (h : Unbacked s.config (containingWord addr))
    (b : Byte) : exec (.write8 addr b) s = .next { s with response := .nothing } :=
  congrArg written (regWrite32_of_unbacked h _)

theorem exec_write16_of_unbacked {s : State} {addr : Word} (h : Unbacked s.config (containingWord addr))
    (x : Half) : exec (.write16 addr x) s = .next { s with response := .nothing } :=
  congrArg written (regWrite32_of_unbacked h _)

/-- A 32-bit access at an address that is no multiple of 4 never reaches a register (R46). -/
theorem unbacked_of_misaligned {cfg : Config} (hwf : cfg.WF) {addr : Word} (h : addr.toNat % 4 ≠ 0) :
    Unbacked cfg addr := by
  intro r hr
  have hmod := regAddr_mod_four hwf r
  rw [← eq_regAddr_of_regAt hr] at hmod
  exact absurd hmod h

/-- The address is none of the bytes of a register other than PRIORITY: the four Timer words and the first
three PIC words (R28). -/
def OffRegisters (cfg : Config) (addr : Word) : Prop :=
  (addr.toNat < cfg.timerBase.toNat ∨ cfg.timerBase.toNat + 0x10 ≤ addr.toNat) ∧
  (addr.toNat < cfg.picBase.toNat ∨ cfg.picBase.toNat + 0x0C ≤ addr.toNat)

/-- A byte of a register other than PRIORITY lies in one of the two ranges of `OffRegisters`. -/
theorem eq_priority_of_offRegisters {cfg : Config} (hwf : cfg.WF) {addr : Word} (h : OffRegisters cfg addr)
    {r : Reg} {k : Nat} (hk : k < 4) (haddr : addr.toNat = (regAddr cfg r).toNat + k) :
    r = .pic .priority := by
  obtain ⟨htimer, hpic⟩ := h
  cases r with
  | timer r =>
    have hoff : (timerOffset r).toNat ≤ 0x0C := by cases r <;> decide
    rw [regAddr_timer_toNat hwf] at haddr
    omega
  | pic r =>
    rw [regAddr_pic_toNat hwf] at haddr
    cases r with
    | priority => rfl
    | _ =>
      simp only [picOffset, BitVec.reduceToNat] at haddr
      omega

theorem unbacked_of_offRegisters {cfg : Config} (hwf : cfg.WF) {addr : Word} (h : OffRegisters cfg addr) :
    Unbacked cfg addr := fun _ hr =>
  eq_priority_of_offRegisters hwf h (k := 0) (by decide) (by rw [← eq_regAddr_of_regAt hr, Nat.add_zero])

theorem unbacked_containingWord_of_offRegisters {cfg : Config} (hwf : cfg.WF) {addr : Word}
    (h : OffRegisters cfg addr) : Unbacked cfg (containingWord addr) := fun _ hr =>
  eq_priority_of_offRegisters hwf h (Nat.mod_lt _ (by decide))
    ((containingWord_eq_regAddr hwf).mp (eq_regAddr_of_regAt hr))

/-- Settles O41: the registers lie inside the two windows. -/
theorem unmappedAccessesAreInert : Obligations.UnmappedAccessesAreInert := by
  unfold Obligations.UnmappedAccessesAreInert
  intro s a b h w hwf htimer hpic
  have hoff : OffRegisters s.config a := by
    unfold OffRegisters
    omega
  have hword := unbacked_of_offRegisters hwf hoff
  have hlane := unbacked_containingWord_of_offRegisters hwf hoff
  exact ⟨exec_read8_of_unbacked hlane, exec_read16_of_unbacked hlane, exec_decodeRead32_of_unbacked hword,
    exec_write8_of_unbacked hlane b, exec_write16_of_unbacked hlane h, exec_decodeWrite32_of_unbacked hword w⟩

/-- Settles O42: the windows are disjoint, so an address past one window's registers is off the other's too;
a misaligned word is no register's address. -/
theorem holesAndMisalignedWordsAreInert : Obligations.HolesAndMisalignedWordsAreInert := by
  unfold Obligations.HolesAndMisalignedWordsAreInert
  intro s a b h w hwf
  refine ⟨fun hhole => ?_, fun hmisaligned => ?_⟩
  · have hoff : OffRegisters s.config a := by
      obtain ⟨-, -, hdisjoint, -⟩ := hwf
      simp only [Config.windowSize] at hdisjoint
      unfold OffRegisters
      omega
    have hword := unbacked_of_offRegisters hwf hoff
    have hlane := unbacked_containingWord_of_offRegisters hwf hoff
    exact ⟨exec_read8_of_unbacked hlane, exec_read16_of_unbacked hlane, exec_write8_of_unbacked hlane b,
      exec_write16_of_unbacked hlane h, exec_decodeRead32_of_unbacked hword,
      exec_decodeWrite32_of_unbacked hword w⟩
  · have hword := unbacked_of_misaligned hwf hmisaligned
    exact ⟨exec_decodeRead32_of_unbacked hword, exec_decodeWrite32_of_unbacked hword w⟩

/-! The bytes of a stored word (R45, R81, R82). -/

theorem readTimerReg_writeTimerReg_of_ne {r r' : TimerReg} (hne : r' ≠ r) (t : Timer) (w : Word) :
    readTimerReg (writeTimerReg t r w) r' = readTimerReg t r' := by
  cases r <;> cases r' <;> simp [readTimerReg, writeTimerReg] at hne ⊢

theorem readPicReg_writePicReg_of_ne {r r' : PicReg} (heoi : r ≠ .eoi) (hne : r' ≠ r) (s : State)
    (w : Word) :
    readPicReg (writePicReg r w s).pic r' = readPicReg s.pic r' := by
  cases r with
  | eoi => exact absurd rfl heoi
  | mask | pending | priority => cases r' <;> simp [readPicReg, writePicReg] at hne ⊢

/-- A write leaves what every other register reads; only EOI reaches past itself, to PENDING (R114). -/
theorem readReg_writeReg_of_ne {r r' : Reg} (heoi : r ≠ .pic .eoi) (hne : r' ≠ r) (s : State) (w : Word) :
    readReg (writeReg s r w) r' = readReg s r' := by
  cases r with
  | timer r =>
    cases r' with
    | timer r' => exact readTimerReg_writeTimerReg_of_ne (fun e => hne (congrArg Reg.timer e)) s.timer w
    | pic r' => rfl
  | pic r =>
    have hpic : r ≠ .eoi := fun e => heoi (congrArg Reg.pic e)
    cases r' with
    | timer r' =>
      cases r with
      | eoi => exact absurd rfl hpic
      | _ => rfl
    | pic r' => exact readPicReg_writePicReg_of_ne hpic (fun e => hne (congrArg Reg.pic e)) s w

theorem exec_write32 (r : Reg) (w : Word) (s : State) :
    exec (write32 r w) s = .next ((writeReg s r w).respond .nothing) := by
  rcases r with (_ | _ | _ | _) | (_ | _ | _ | _) <;> rfl

/-- A byte of a register is the byte of the word that the register reads (R82). -/
theorem byteAt_of_eq_regAddr_add {s : State} (hwf : s.config.WF) {r : Reg} {addr : Word} {k : Nat} (hk : k < 4)
    (haddr : addr.toNat = (regAddr s.config r).toNat + k) :
    (byteAt s addr).toNat = (readReg s r).toNat / 256 ^ k % 256 := by
  have hmod := regAddr_mod_four hwf r
  have hlane : addr.toNat % 4 = k := by omega
  have hword : containingWord addr = regAddr s.config r :=
    (containingWord_eq_regAddr hwf).mpr (by rw [hlane, haddr])
  rw [byteAt, hword, regRead32_regAddr hwf, extract8_toNat, hlane]

/-- A write other than of EOI leaves every byte outside its register. -/
theorem byteAt_writeReg_of_ne {s : State} {r : Reg} (heoi : r ≠ .pic .eoi) {addr : Word}
    (hne : containingWord addr ≠ regAddr s.config r) (w : Word) :
    byteAt (writeReg s r w) addr = byteAt s addr := by
  have hread : regRead32 (writeReg s r w) (containingWord addr) = regRead32 s (containingWord addr) := by
    unfold regRead32
    rw [writeReg_config]
    cases hr : regAt s.config (containingWord addr) with
    | none => rfl
    | some r' =>
      have hr' : r' ≠ r := by
        rintro rfl
        exact hne (eq_regAddr_of_regAt hr)
      exact readReg_writeReg_of_ne heoi hr' s w
  rw [byteAt, byteAt, hread]

/-- The WRITE32 of a register that reads back what is written stores the word's four bytes and no other. -/
theorem write32_storesFourBytes {s : State} (hwf : s.config.WF) {r : Reg} (heoi : r ≠ .pic .eoi) {w : Word}
    (hstored : readReg (writeReg s r w) r = w) (x : Word) :
    ∃ t, exec (write32 r w) s = .next t ∧
      (∀ k < 4, x.toNat = (regAddr s.config r).toNat + k → (byteAt t x).toNat = w.toNat / 256 ^ k % 256) ∧
      ((∀ k < 4, x.toNat ≠ (regAddr s.config r).toNat + k) → byteAt t x = byteAt s x) := by
  refine ⟨_, exec_write32 r w s, fun k hk hx => ?_, fun hx => ?_⟩
  · have hbyte := byteAt_of_eq_regAddr_add (s := writeReg s r w) (r := r) (by rwa [writeReg_config]) hk
      (by rwa [writeReg_config])
    rwa [hstored] at hbyte
  · exact byteAt_writeReg_of_ne heoi
      (fun hword => hx _ (Nat.mod_lt _ (by decide)) ((containingWord_eq_regAddr hwf).mp hword)) w

/-- Settles O43: PERIOD, COUNT and MASK read back what is written. -/
theorem write32StoresFourBytes : Obligations.Write32StoresFourBytes := by
  unfold Obligations.Write32StoresFourBytes
  intro s w x hwf
  exact ⟨write32_storesFourBytes (r := .timer .period) hwf (by decide) rfl x,
    write32_storesFourBytes (r := .timer .count) hwf (by decide) rfl x,
    write32_storesFourBytes (r := .pic .mask) hwf (by decide) rfl x⟩

/-! The decoder's rows (R73), and the operations that only ask (R50, R69). -/

/-- Settles O3: the window decode and the offset switch put each address in the row made for it. -/
theorem decodedInstructionsAreWellFormed : Obligations.DecodedInstructionsAreWellFormed :=
  decode_wf

/-- A query performs no action (R50, R69, R108, R129, R136). -/
theorem actionOf_of_isQuery {i : Instr} (hi : isQuery i = true) (s : State) : actionOf s i = .idle := by
  cases i with
  | tick | initDefault => cases hi
  | signal vec | ackIrq vec => cases hi
  | write8 a x | write16 a x => cases hi
  | write32TimerCtrl w | write32TimerPeriod w | write32TimerCount w | write32TimerStatus w => cases hi
  | write32PicMask w | write32PicPending w | write32PicEoi w | write32PicPriority w => cases hi
  | write32TimerHole a w | write32PicHole a w | write32Unmapped a w => cases hi
  | _ => rfl

/-- Settles O44: without an action only the response is left. -/
theorem queriesChangeNoState : Obligations.QueriesChangeNoState := by
  unfold Obligations.QueriesChangeNoState
  intro i s hi
  refine ⟨answerOf s i, ?_⟩
  rw [exec_eq, actionOf_of_isQuery hi]
  rfl

end Sys2Proof.Machine

/-! The operands a command word keeps (R61, R62), and the reserved codes (R69). -/

namespace Sys2Proof.Machine

/-- One case for each of the sixteen operation codes (R61). -/
theorem opcode_cases {motive : BitVec 4 → Prop} (tick : motive 0x0#4) (irqPending : motive 0x1#4)
    (ackIrq : motive 0x2#4) (read8 : motive 0x3#4) (read16 : motive 0x4#4) (read32 : motive 0x5#4)
    (write8 : motive 0x6#4) (write16 : motive 0x7#4) (write32 : motive 0x8#4) (getIrqStats : motive 0x9#4)
    (getGlobalCycles : motive 0xA#4) (initDefault : motive 0xB#4) (signal : motive 0xC#4)
    (reservedD : motive 0xD#4) (reservedE : motive 0xE#4) (reservedF : motive 0xF#4) (op : BitVec 4) :
    motive op := by
  have hop : op ∈ [0x0#4, 0x1#4, 0x2#4, 0x3#4, 0x4#4, 0x5#4, 0x6#4, 0x7#4, 0x8#4, 0x9#4, 0xA#4, 0xB#4, 0xC#4,
      0xD#4, 0xE#4, 0xF#4] := by
    revert op
    decide
  simp only [List.mem_cons, List.not_mem_nil, or_false] at hop
  rcases hop with rfl | rfl | rfl | rfl | rfl | rfl | rfl | rfl | rfl | rfl | rfl | rfl | rfl | rfl | rfl | rfl <;>
    assumption

/-- Masking a command word masks its fields (R60). -/
theorem command_and (op op' : BitVec 4) (a a' d d' : Word) :
    command op a d &&& command op' a' d' = command (op &&& op') (a &&& a') (d &&& d') := by
  apply BitVec.eq_of_getLsbD_eq
  intro i _
  simp only [BitVec.getLsbD_and, command_getLsbD]
  split_ifs <;> rfl

/-- The canonical word keeps the code and masks the operands (R62). -/
theorem canonicalCommand_command (op : BitVec 4) (a d : Word) :
    canonicalCommand (command op a d) =
      command op (a &&& Command.a (usedMask op)) (d &&& Command.d (usedMask op)) := by
  have hcode : op &&& Command.op (usedMask op) = op := by
    revert op
    decide
  rw [canonicalCommand, command_op]
  nth_rewrite 1 [← command_fields (usedMask op)]
  rw [command_and, hcode]

/-- The low bits of a word as a mask keeps them, and as a sub-word write takes them (R62, R67). -/
theorem and_low_eq_setWidth (d : Word) (n : Nat) (hn : n ≤ 32) :
    d &&& BitVec.ofNat 32 (2 ^ n - 1) = (d.extractLsb' 0 n).setWidth 32 := by
  have hmask : 2 ^ n - 1 < 2 ^ 32 :=
    Nat.lt_of_lt_of_le (Nat.sub_lt (Nat.two_pow_pos n) Nat.one_pos) (Nat.pow_le_pow_right (by decide) hn)
  apply BitVec.eq_of_toNat_eq
  rw [BitVec.toNat_and, BitVec.toNat_ofNat, Nat.mod_eq_of_lt hmask, Nat.and_two_pow_sub_one_eq_mod,
    BitVec.toNat_setWidth, BitVec.extractLsb'_toNat, Nat.shiftRight_zero]
  exact (Nat.mod_eq_of_lt (Nat.lt_of_le_of_lt (Nat.mod_le _ _) d.isLt)).symm

/-- A datum narrower than a word is read back from the word it is put in (R67). -/
theorem extractLsb'_setWidth_word {n : Nat} (hn : n ≤ 32) (x : BitVec n) :
    (x.setWidth 32).extractLsb' 0 n = x := by
  apply BitVec.eq_of_getLsbD_eq
  intro i hi
  have hlt : i < 32 := Nat.lt_of_lt_of_le hi hn
  simp [hi, hlt]

/-- The decoder reads no operand bit outside the mask (R62). -/
theorem decodeOp_used (cfg : Config) (op : BitVec 4) (a d : Word) :
    decodeOp cfg op (a &&& Command.a (usedMask op)) (d &&& Command.d (usedMask op)) = decodeOp cfg op a d := by
  cases op using opcode_cases with
  | read8 => exact congrArg Instr.read8 BitVec.and_allOnes
  | read16 => exact congrArg Instr.read16 BitVec.and_allOnes
  | read32 => exact congrArg (decodeRead32 cfg) BitVec.and_allOnes
  | write32 => exact congrArg₂ (decodeWrite32 cfg) BitVec.and_allOnes BitVec.and_allOnes
  | write8 =>
    have hbyte := congrArg (BitVec.extractLsb' 0 8) (and_low_eq_setWidth d 8 (by decide))
    rw [extractLsb'_setWidth_word (by decide)] at hbyte
    exact congrArg₂ Instr.write8 BitVec.and_allOnes hbyte
  | write16 =>
    have hhalf := congrArg (BitVec.extractLsb' 0 16) (and_low_eq_setWidth d 16 (by decide))
    rw [extractLsb'_setWidth_word (by decide)] at hhalf
    exact congrArg₂ Instr.write16 BitVec.and_allOnes hhalf
  | ackIrq => exact congrArg Instr.ackIrq BitVec.and_allOnes
  | getIrqStats => exact congrArg Instr.getIrqStats BitVec.and_allOnes
  | signal => exact congrArg Instr.signal BitVec.and_allOnes
  | tick | irqPending | getGlobalCycles | initDefault | reservedD | reservedE | reservedF => rfl

/-- A command decodes as its canonical word does (R62). -/
theorem decode_canonicalCommand (cfg : Config) (c : Command) :
    decode cfg (canonicalCommand c) = decode cfg c := by
  rw [← command_fields c, canonicalCommand_command, decode_command, decode_command, decodeOp_used]

/-- Settles O6: the two commands decode to what their one canonical word decodes to. -/
theorem ignoredBitsHaveNoEffect : Obligations.IgnoredBitsHaveNoEffect := by
  unfold Obligations.IgnoredBitsHaveNoEffect
  intro s rest c c' hcanonical
  have hdecode : decode s.config c = decode s.config c' := by
    rw [← decode_canonicalCommand, hcanonical, decode_canonicalCommand]
  rw [step_command (State.setInputs_inputs s _), step_command (State.setInputs_inputs s _),
    State.setInputs_config, State.setInputs_config, hdecode]
  rfl

/-- Settles O48: the codes from 13 on are the three reserved ones, each with a row that leaves only the
empty response. -/
theorem reservedCodesAreInert : Obligations.ReservedCodesAreInert := by
  unfold Obligations.ReservedCodesAreInert
  refine ⟨fun s => ⟨rfl, rfl, rfl⟩, fun s rest op a d hop hinputs => ?_⟩
  rw [step_command hinputs, decode_command]
  have hcode : op = 0xD#4 ∨ op = 0xE#4 ∨ op = 0xF#4 := by
    clear hinputs
    revert op
    decide
  obtain rfl | rfl | rfl := hcode
  · rfl
  · rfl
  · rfl

end Sys2Proof.Machine

/-! SERVICE (R75). -/

namespace Sys2Proof.Machine

/-- A vector is not served exactly when it is not pending or masked (R20, R21). -/
theorem requests_getLsbD_eq_false {p : Pic} {v : VectorIx} :
    (p.pendingBits &&& ~~~p.maskBits).getLsbD v = false ↔
      p.pendingBits.getLsbD v = false ∨ p.maskBits.getLsbD v = true := by
  rw [BitVec.getLsbD_and, BitVec.getLsbD_not, decide_eq_true v.isLt, Bool.true_and, Bool.and_eq_false_iff,
    Bool.not_eq_false']

/-- `Resolve` answers the lowest vector that is pending and not masked (R107). -/
theorem resolve_eq_some {p : Pic} {v : VectorIx} :
    resolve p = some v ↔
      ¬(p.pendingBits.getLsbD v = false ∨ p.maskBits.getLsbD v = true) ∧
        ∀ w : VectorIx, w < v → p.pendingBits.getLsbD w = false ∨ p.maskBits.getLsbD w = true := by
  simp only [resolve, lowestSet_eq_some, ← requests_getLsbD_eq_false, Bool.not_eq_false]

/-- `Resolve` answers none when no vector is pending and unmasked (R107). -/
theorem resolve_eq_none {p : Pic} :
    resolve p = none ↔ ∀ v : VectorIx, p.pendingBits.getLsbD v = false ∨ p.maskBits.getLsbD v = true := by
  simp only [resolve, lowestSet_eq_none, requests_getLsbD_eq_false]

/-- ACK_IRQ of a vector in range acknowledges it (R111). -/
theorem exec_ackIrq (v : VectorIx) (s : State) :
    exec (.ackIrq (BitVec.ofNat 32 v)) s = .next ((acknowledgeVector v s).respond (.accepted true)) := by
  have hv := (vectorInRange_signedVector (BitVec.ofNat 32 v) v).mpr rfl
  change execAckIrq (BitVec.ofNat 32 v) s = _
  rw [execAckIrq, hv]

/-- An acknowledgment does not read the response port (R63, R109). -/
theorem acknowledgeVector_respond (v : VectorIx) (s : State) (r : Response) :
    acknowledgeVector v (s.respond r) = (acknowledgeVector v s).respond r := by
  unfold acknowledgeVector
  rw [State.respond_pic]
  split <;> rfl

/-- SERVICE with a vector to serve is ACK_IRQ of it: the answer to IRQ_PENDING is overwritten (R75). -/
theorem serviceMacro_of_resolve {s : State} {v : VectorIx} (hv : resolve s.pic = some v) :
    serviceMacro s = exec (.ackIrq (BitVec.ofNat 32 v)) s := by
  have hline : irqLine s = .irq true (BitVec.ofFin v) := by rw [irqLine, hv, irqResponse]
  have hword : (BitVec.ofFin v : BitVec 5).setWidth 32 = BitVec.ofNat 32 v :=
    BitVec.eq_of_toNat_eq (by simp)
  calc serviceMacro s
      = serviceAnswer (s.respond (irqLine s)) := rfl
    _ = exec (.ackIrq (BitVec.ofNat 32 v)) (s.respond (irqLine s)) := by rw [hline, ← hword]; rfl
    _ = exec (.ackIrq (BitVec.ofNat 32 v)) s := by
      rw [exec_ackIrq, exec_ackIrq, acknowledgeVector_respond]
      rfl

/-- Settles O19: the vector that IRQ_PENDING answers is the one acknowledged. -/
theorem serviceAcknowledgesTheLowestVector : Obligations.ServiceAcknowledgesTheLowestVector := by
  unfold Obligations.ServiceAcknowledgesTheLowestVector
  intro s
  refine ⟨fun v hpending hmask hlower => ?_, fun hnone => ?_⟩
  · have hv := resolve_eq_some.mpr ⟨by rw [hpending, hmask]; decide, hlower⟩
    refine ⟨_, (serviceMacro_of_resolve hv).trans (exec_ackIrq v s), exec_ackIrq v s, rfl, ?_⟩
    rw [State.respond_pic, acknowledgeVector_pendingBits, clearPending_getLsbD _ _ _ v.isLt]
    simp
  · have hline : irqLine s = .irq false 0 := by rw [irqLine, resolve_eq_none.mpr hnone, irqResponse]
    change serviceAnswer (s.respond (irqLine s)) = _
    rw [hline]
    rfl

end Sys2Proof.Machine

/-! The encoder and the decoder (R60, R61, R73). READ32 and WRITE32 split the addresses among the same eleven
rows; every other operation is decided by its code. -/

namespace Sys2Proof.Machine

/-- A row of READ32 or of WRITE32, with what its operand keeps of the address (R73). -/
inductive AccessRow where
  | reg (r : Reg)
  | timerHole (off : Byte)
  | picHole (off : Byte)
  | unmapped (addr : Word)

/-- The READ32 row of a register (R73). -/
def read32 : Reg → Instr
  | .timer .ctrl => .read32TimerCtrl
  | .timer .period => .read32TimerPeriod
  | .timer .count => .read32TimerCount
  | .timer .status => .read32TimerStatus
  | .pic .mask => .read32PicMask
  | .pic .pending => .read32PicPending
  | .pic .eoi => .read32PicEoi
  | .pic .priority => .read32PicPriority

def AccessRow.read : AccessRow → Instr
  | .reg r => read32 r
  | .timerHole off => .read32TimerHole off
  | .picHole off => .read32PicHole off
  | .unmapped addr => .read32Unmapped addr

def AccessRow.write : AccessRow → Word → Instr
  | .reg r => write32 r
  | .timerHole off => .write32TimerHole off
  | .picHole off => .write32PicHole off
  | .unmapped addr => .write32Unmapped addr

/-- The address that a row's word carries (R28, R41). -/
def AccessRow.addr (cfg : Config) : AccessRow → Word
  | .reg r => regAddr cfg r
  | .timerHole off => windowAddr cfg.timerBase off
  | .picHole off => windowAddr cfg.picBase off
  | .unmapped addr => addr

/-- The row that an address selects (R41, R43, R73). -/
def accessRow (cfg : Config) (addr : Word) : AccessRow :=
  match decodeAddr cfg addr with
  | .timer off => (timerReg off).elim (.timerHole off) (.reg ∘ .timer)
  | .pic off => (picReg off).elim (.picHole off) (.reg ∘ .pic)
  | .unmapped => .unmapped addr

/-- READ32 and WRITE32 choose their row by the address alone, and alike (R80, R81). -/
theorem decode32_eq_accessRow (cfg : Config) (addr : Word) :
    decodeRead32 cfg addr = (accessRow cfg addr).read ∧
      ∀ w, decodeWrite32 cfg addr w = (accessRow cfg addr).write w := by
  unfold decodeRead32 decodeWrite32 accessRow
  cases decodeAddr cfg addr with
  | timer off =>
    dsimp only
    cases timerReg off with
    | none => exact ⟨rfl, fun _ => rfl⟩
    | some r => cases r <;> exact ⟨rfl, fun _ => rfl⟩
  | pic off =>
    dsimp only
    cases picReg off with
    | none => exact ⟨rfl, fun _ => rfl⟩
    | some r => cases r <;> exact ⟨rfl, fun _ => rfl⟩
  | unmapped => exact ⟨rfl, fun _ => rfl⟩

theorem decodeRead32_eq (cfg : Config) (addr : Word) : decodeRead32 cfg addr = (accessRow cfg addr).read :=
  (decode32_eq_accessRow cfg addr).1

theorem decodeWrite32_eq (cfg : Config) (addr w : Word) :
    decodeWrite32 cfg addr w = (accessRow cfg addr).write w :=
  (decode32_eq_accessRow cfg addr).2 w

theorem decodeOp_read32 (cfg : Config) (a d : Word) : decodeOp cfg 0x5#4 a d = (accessRow cfg a).read :=
  decodeRead32_eq cfg a

theorem decodeOp_write32 (cfg : Config) (a d : Word) : decodeOp cfg 0x8#4 a d = (accessRow cfg a).write d :=
  decodeWrite32_eq cfg a d

theorem encode_read (cfg : Config) (row : AccessRow) : encode cfg row.read = command 0x5#4 (row.addr cfg) 0 := by
  cases row with
  | reg r => rcases r with (_ | _ | _ | _) | (_ | _ | _ | _) <;> rfl
  | _ => rfl

theorem encode_write (cfg : Config) (row : AccessRow) (w : Word) :
    encode cfg (row.write w) = command 0x8#4 (row.addr cfg) w := by
  cases row with
  | reg r => rcases r with (_ | _ | _ | _) | (_ | _ | _ | _) <;> rfl
  | _ => rfl

theorem write_wf (cfg : Config) (row : AccessRow) (w : Word) : (row.write w).wf cfg = row.read.wf cfg := by
  cases row with
  | reg r => rcases r with (_ | _ | _ | _) | (_ | _ | _ | _) <;> rfl
  | _ => rfl

/-- The row that an address selects carries that address. -/
theorem addr_accessRow (cfg : Config) (addr : Word) : (accessRow cfg addr).addr cfg = addr := by
  unfold accessRow
  rcases decodeAddr_cases cfg addr with ⟨off, e, haddr⟩ | ⟨off, e, haddr⟩ | e <;> rw [e] <;> dsimp only
  · cases hreg : timerReg off with
    | none => exact haddr
    | some r => rwa [timerReg_eq_some.mp hreg] at haddr
  · cases hreg : picReg off with
    | none => exact haddr
    | some r => rwa [picReg_eq_some.mp hreg] at haddr
  · rfl

/-- A well-formed row is the one that its address selects: each window decodes to its offsets. -/
theorem accessRow_addr {cfg : Config} (hcfg : cfg.WF) {row : AccessRow} (hrow : row.read.wf cfg = true) :
    accessRow cfg (row.addr cfg) = row := by
  cases row with
  | reg r =>
    cases r with
    | timer r => simp [accessRow, AccessRow.addr, regAddr, decodeAddr_timer hcfg]
    | pic r => simp [accessRow, AccessRow.addr, regAddr, decodeAddr_pic hcfg]
  | timerHole off =>
    have hreg : timerReg off = none := Option.isNone_iff_eq_none.mp hrow
    simp [accessRow, AccessRow.addr, decodeAddr_timer hcfg, hreg]
  | picHole off =>
    have hreg : picReg off = none := Option.isNone_iff_eq_none.mp hrow
    simp [accessRow, AccessRow.addr, decodeAddr_pic hcfg, hreg]
  | unmapped addr =>
    have haddr : decodeAddr cfg addr = .unmapped := of_decide_eq_true hrow
    simp [accessRow, AccessRow.addr, haddr]

theorem decode_encode_read {cfg : Config} (hcfg : cfg.WF) (row : AccessRow) (hrow : row.read.wf cfg = true) :
    decode cfg (encode cfg row.read) = row.read := by
  rw [encode_read, decode_command, decodeOp_read32, accessRow_addr hcfg hrow]

theorem decode_encode_write {cfg : Config} (hcfg : cfg.WF) (row : AccessRow) (w : Word)
    (hrow : (row.write w).wf cfg = true) : decode cfg (encode cfg (row.write w)) = row.write w := by
  rw [write_wf] at hrow
  rw [encode_write, decode_command, decodeOp_write32, accessRow_addr hcfg hrow]

/-- Settles O1: an access row's word carries the address that selects the row; every other operation is
decided by its code, and its operand is read back from the field it is put in. -/
theorem decodeOfEncodeIsTheInstruction : Obligations.DecodeOfEncodeIsTheInstruction := by
  unfold Obligations.DecodeOfEncodeIsTheInstruction
  intro cfg i hcfg hi
  cases i with
  | read32TimerCtrl => exact decode_encode_read hcfg (.reg (.timer .ctrl)) hi
  | read32TimerPeriod => exact decode_encode_read hcfg (.reg (.timer .period)) hi
  | read32TimerCount => exact decode_encode_read hcfg (.reg (.timer .count)) hi
  | read32TimerStatus => exact decode_encode_read hcfg (.reg (.timer .status)) hi
  | read32PicMask => exact decode_encode_read hcfg (.reg (.pic .mask)) hi
  | read32PicPending => exact decode_encode_read hcfg (.reg (.pic .pending)) hi
  | read32PicEoi => exact decode_encode_read hcfg (.reg (.pic .eoi)) hi
  | read32PicPriority => exact decode_encode_read hcfg (.reg (.pic .priority)) hi
  | read32TimerHole off => exact decode_encode_read hcfg (.timerHole off) hi
  | read32PicHole off => exact decode_encode_read hcfg (.picHole off) hi
  | read32Unmapped addr => exact decode_encode_read hcfg (.unmapped addr) hi
  | write32TimerCtrl w => exact decode_encode_write hcfg (.reg (.timer .ctrl)) w hi
  | write32TimerPeriod w => exact decode_encode_write hcfg (.reg (.timer .period)) w hi
  | write32TimerCount w => exact decode_encode_write hcfg (.reg (.timer .count)) w hi
  | write32TimerStatus w => exact decode_encode_write hcfg (.reg (.timer .status)) w hi
  | write32PicMask w => exact decode_encode_write hcfg (.reg (.pic .mask)) w hi
  | write32PicPending w => exact decode_encode_write hcfg (.reg (.pic .pending)) w hi
  | write32PicEoi w => exact decode_encode_write hcfg (.reg (.pic .eoi)) w hi
  | write32PicPriority w => exact decode_encode_write hcfg (.reg (.pic .priority)) w hi
  | write32TimerHole off w => exact decode_encode_write hcfg (.timerHole off) w hi
  | write32PicHole off w => exact decode_encode_write hcfg (.picHole off) w hi
  | write32Unmapped addr w => exact decode_encode_write hcfg (.unmapped addr) w hi
  | write8 addr data =>
    exact (decode_command cfg _ _ _).trans
      (congrArg (Instr.write8 addr) (extractLsb'_setWidth_word (by decide) data))
  | write16 addr data =>
    exact (decode_command cfg _ _ _).trans
      (congrArg (Instr.write16 addr) (extractLsb'_setWidth_word (by decide) data))
  | _ => exact decode_command cfg _ _ _

/-- What a word decodes to is encoded as that word with its operands masked (R62). -/
theorem encode_decodeOp (cfg : Config) (op : BitVec 4) (a d : Word) :
    encode cfg (decodeOp cfg op a d) =
      command op (a &&& Command.a (usedMask op)) (d &&& Command.d (usedMask op)) := by
  cases op using opcode_cases with
  | read32 =>
    rw [decodeOp_read32, encode_read, addr_accessRow]
    exact congrArg₂ (command _) BitVec.and_allOnes.symm BitVec.and_zero.symm
  | write32 =>
    rw [decodeOp_write32, encode_write, addr_accessRow]
    exact congrArg₂ (command _) BitVec.and_allOnes.symm BitVec.and_allOnes.symm
  | write8 => exact congrArg₂ (command _) BitVec.and_allOnes.symm (and_low_eq_setWidth d 8 (by decide)).symm
  | write16 => exact congrArg₂ (command _) BitVec.and_allOnes.symm (and_low_eq_setWidth d 16 (by decide)).symm
  | read8 | read16 => exact congrArg₂ (command _) BitVec.and_allOnes.symm BitVec.and_zero.symm
  | ackIrq | getIrqStats | signal => exact congrArg₂ (command _) BitVec.and_zero.symm BitVec.and_allOnes.symm
  | tick | irqPending | getGlobalCycles | initDefault | reservedD | reservedE | reservedF =>
    exact congrArg₂ (command _) BitVec.and_zero.symm BitVec.and_zero.symm

/-- Encoding what a word decodes to gives the canonical word, whatever the bases. -/
theorem encode_decode (cfg : Config) (c : Command) : encode cfg (decode cfg c) = canonicalCommand c := by
  rw [← command_fields c, decode_command, encode_decodeOp, canonicalCommand_command]

/-- Settles O2: it holds even for bases outside R7. -/
theorem encodeOfDecodeIsCanonical : Obligations.EncodeOfDecodeIsCanonical := fun cfg c _ => encode_decode cfg c

end Sys2Proof.Machine

/-! The opcode table (R73): which row an instruction has, when a row matches, and which matching row has the
highest priority. -/

namespace Sys2Proof.Machine

/-- The place of an instruction's row in the table. -/
def tableIndex : Instr → Fin 36
  | .read32TimerCtrl => 0 | .read32TimerPeriod => 1 | .read32TimerCount => 2 | .read32TimerStatus => 3
  | .read32PicMask => 4 | .read32PicPending => 5 | .read32PicEoi => 6 | .read32PicPriority => 7
  | .read32TimerHole _ => 8 | .read32PicHole _ => 9 | .read32Unmapped _ => 10
  | .write32TimerCtrl _ => 11 | .write32TimerPeriod _ => 12 | .write32TimerCount _ => 13
  | .write32TimerStatus _ => 14 | .write32PicMask _ => 15 | .write32PicPending _ => 16
  | .write32PicEoi _ => 17 | .write32PicPriority _ => 18
  | .write32TimerHole _ _ => 19 | .write32PicHole _ _ => 20 | .write32Unmapped _ _ => 21
  | .tick => 22 | .irqPending => 23 | .ackIrq _ => 24 | .read8 _ => 25 | .read16 _ => 26
  | .write8 _ _ => 27 | .write16 _ _ => 28 | .getIrqStats _ => 29 | .getGlobalCycles => 30
  | .initDefault => 31 | .signal _ => 32 | .reservedD => 33 | .reservedE => 34 | .reservedF => 35

/-- The row at a place of the table. -/
def rowAt (k : Fin 36) : TableRow := opcodeTable.get k

theorem mem_opcodeTable_iff {r : TableRow} : r ∈ opcodeTable ↔ ∃ k, rowAt k = r := List.mem_iff_get

/-- The row of an instruction. -/
def tableRow (i : Instr) : TableRow := rowAt (tableIndex i)

theorem tableRow_mem (i : Instr) : tableRow i ∈ opcodeTable := mem_opcodeTable_iff.mpr ⟨_, rfl⟩

theorem tableRow_mnemonic (i : Instr) : (tableRow i).mnemonic = i.mnemonic := by
  cases i <;> rfl

/-! The table by itself: facts about its 36 rows. -/

theorem opcodeTable_fields : ∀ r ∈ opcodeTable,
    Command.op r.mask = 0xF#4 ∧ Command.d r.mask = 0 ∧ Command.d r.pattern = 0 := by decide

theorem opcodeTable_priority : ∀ r ∈ opcodeTable, 1 ≤ r.priority ∧ r.priority ≤ 3 := by decide

/-- Rows of one priority that agree wherever both masks look are the same row. -/
theorem opcodeTable_separated : ∀ j k : Fin 36,
    (rowAt j).pattern &&& (rowAt k).mask = (rowAt k).pattern &&& (rowAt j).mask →
    (rowAt j).priority = (rowAt k).priority → j = k := by decide

/-- The WRITE32 rows stand eleven places after the READ32 rows, and test the address alike. -/
theorem opcodeTable_write32 : ∀ k : Fin 36, k < 11 →
    Command.op (rowAt k).pattern = 0x5#4 ∧ Command.op (rowAt (k + 11)).pattern = 0x8#4 ∧
    Command.a (rowAt (k + 11)).mask = Command.a (rowAt k).mask ∧
    Command.a (rowAt (k + 11)).pattern = Command.a (rowAt k).pattern ∧
    (rowAt (k + 11)).priority = (rowAt k).priority := by decide

/-- What a row of READ32 or WRITE32 tests of the address: the whole of it, the window, or nothing. -/
theorem opcodeTable_access : ∀ r ∈ opcodeTable, Command.op r.pattern = 0x5#4 ∨ Command.op r.pattern = 0x8#4 →
    (Command.a r.mask = BitVec.allOnes 32 ∧
      r.priority = (tableRow (accessRow Config.standard (Command.a r.pattern)).read).priority) ∨
    (Command.a r.mask = 0xFFFFFF00#32 ∧ r.priority = 2 ∧
      (Command.a r.pattern = Config.standard.timerBase ∨ Command.a r.pattern = Config.standard.picBase)) ∨
    r.priority = 1 := by decide

theorem rowAt_timerHole : Command.a (rowAt 8).mask = 0xFFFFFF00#32 ∧
    Command.a (rowAt 8).pattern = Config.standard.timerBase ∧ Config.standard.timerBase.toNat % 256 = 0 := by
  decide
theorem rowAt_picHole : Command.a (rowAt 9).mask = 0xFFFFFF00#32 ∧
    Command.a (rowAt 9).pattern = Config.standard.picBase ∧ Config.standard.picBase.toNat % 256 = 0 := by
  decide
theorem rowAt_unmapped : Command.a (rowAt 10).mask = 0 ∧ Command.a (rowAt 10).pattern = 0 := by decide

/-! When a row matches: the test of a command word, field by field. -/

/-- A row tests the code, and of the operands at most the address (R73). -/
theorem rowMatches_iff {r : TableRow} (hr : r ∈ opcodeTable) (c : Command) :
    rowMatches r c = true ↔
      Command.op c = Command.op r.pattern ∧ Command.a c &&& Command.a r.mask = Command.a r.pattern := by
  obtain ⟨hop, hmask, hpattern⟩ := opcodeTable_fields r hr
  have hcode : Command.op c &&& 0xF#4 = Command.op c := BitVec.and_allOnes
  have hmasked : c &&& r.mask = command (Command.op c) (Command.a c &&& Command.a r.mask) 0 := by
    calc c &&& r.mask
        = command (Command.op c) (Command.a c) (Command.d c) &&&
            command (Command.op r.mask) (Command.a r.mask) (Command.d r.mask) := by
          rw [command_fields, command_fields]
      _ = command (Command.op c) (Command.a c &&& Command.a r.mask) 0 := by
          rw [command_and, hop, hmask, hcode]
          exact congrArg (command _ _) BitVec.and_zero
  have hfields : r.pattern = command (Command.op r.pattern) (Command.a r.pattern) 0 := by
    rw [← hpattern, command_fields]
  rw [rowMatches, decide_eq_true_iff, hmasked]
  constructor
  · intro h
    rw [← h, command_op, command_a]
    exact ⟨rfl, rfl⟩
  · rintro ⟨hc, ha⟩
    rw [hc, ha, ← hfields]

/-- The mask of the hole rows drops the offset within a window (R73). -/
theorem and_windowMask_toNat (a : Word) : (a &&& 0xFFFFFF00#32).toNat = a.toNat - a.toNat % 256 := by
  have hshift : a &&& 0xFFFFFF00#32 = a >>> 8 <<< 8 := by
    have hmask : ∀ i < 32, (0xFFFFFF00#32).getLsbD i = !decide (i < 8) := by decide
    apply BitVec.eq_of_getLsbD_eq
    intro i hi
    rw [BitVec.getLsbD_and, hmask i hi, BitVec.getLsbD_shiftLeft, BitVec.getLsbD_ushiftRight]
    by_cases hlow : i < 8
    · simp [hlow]
    · have hsub : 8 + (i - 8) = i := by omega
      simp [hlow, hsub, hi]
  have hlt := a.isLt
  rw [hshift, BitVec.toNat_shiftLeft, BitVec.toNat_ushiftRight, Nat.shiftLeft_eq, Nat.shiftRight_eq_div_pow]
  omega

/-- An aligned window is tested by the mask exactly as by its range (R41, R73). -/
theorem and_windowMask_eq_iff {base : Word} (hbase : base.toNat % 256 = 0) (a : Word) :
    a &&& 0xFFFFFF00#32 = base ↔ inWindow base a = true := by
  rw [inWindow_iff, ← BitVec.toNat_inj, and_windowMask_toNat]
  omega

/-! The row of the decoded instruction matches, and no matching row has a higher priority. -/

theorem tableIndex_read_lt (row : AccessRow) : tableIndex row.read < 11 := by
  cases row with
  | reg r => rcases r with (_ | _ | _ | _) | (_ | _ | _ | _) <;> decide
  | timerHole off => exact (by decide : (8 : Fin 36) < 11)
  | picHole off => exact (by decide : (9 : Fin 36) < 11)
  | unmapped addr => exact (by decide : (10 : Fin 36) < 11)

theorem tableIndex_write (row : AccessRow) (w : Word) : tableIndex (row.write w) = tableIndex row.read + 11 := by
  cases row with
  | reg r => rcases r with (_ | _ | _ | _) | (_ | _ | _ | _) <;> rfl
  | _ => rfl

/-- The rows of READ32 and WRITE32 that an address selects differ in the code alone. -/
theorem tableRow_access (row : AccessRow) (w : Word) :
    Command.op (tableRow row.read).pattern = 0x5#4 ∧ Command.op (tableRow (row.write w)).pattern = 0x8#4 ∧
    Command.a (tableRow (row.write w)).mask = Command.a (tableRow row.read).mask ∧
    Command.a (tableRow (row.write w)).pattern = Command.a (tableRow row.read).pattern ∧
    (tableRow (row.write w)).priority = (tableRow row.read).priority := by
  unfold tableRow
  rw [tableIndex_write]
  exact opcodeTable_write32 _ (tableIndex_read_lt row)

/-- An address inside the window of a hole row passes that row's test. -/
theorem and_mask_of_inWindow {k : Fin 36} {base a : Word}
    (hk : Command.a (rowAt k).mask = 0xFFFFFF00#32 ∧ Command.a (rowAt k).pattern = base ∧ base.toNat % 256 = 0)
    (ha : inWindow base a = true) : a &&& Command.a (rowAt k).mask = Command.a (rowAt k).pattern := by
  obtain ⟨hmask, hpattern, hbase⟩ := hk
  rw [hmask, hpattern]
  exact (and_windowMask_eq_iff hbase a).mpr ha

/-- The address that a row carries passes the row's test. -/
theorem addr_and_mask (row : AccessRow) :
    row.addr Config.standard &&& Command.a (tableRow row.read).mask = Command.a (tableRow row.read).pattern := by
  cases row with
  | reg r => rcases r with (_ | _ | _ | _) | (_ | _ | _ | _) <;> rfl
  | timerHole off => exact and_mask_of_inWindow rowAt_timerHole (windowAddr_inWindow (by decide) off).1
  | picHole off => exact and_mask_of_inWindow rowAt_picHole (windowAddr_inWindow (by decide) off).1
  | unmapped addr =>
    obtain ⟨hmask, hpattern⟩ := rowAt_unmapped
    change addr &&& Command.a (rowAt 10).mask = Command.a (rowAt 10).pattern
    rw [hmask, hpattern]
    exact BitVec.and_zero

/-- Every other operation has one row, which its code decides. -/
theorem tableRow_of_code {op : BitVec 4} (hread : op ≠ 0x5#4) (hwrite : op ≠ 0x8#4) (a d : Word) :
    op = Command.op (tableRow (decodeOp Config.standard op a d)).pattern ∧
    Command.a (tableRow (decodeOp Config.standard op a d)).mask = 0 ∧
    Command.a (tableRow (decodeOp Config.standard op a d)).pattern = 0 ∧
    (tableRow (decodeOp Config.standard op a d)).priority = 3 := by
  have hindex : tableIndex (decodeOp Config.standard op a d) = tableIndex (decodeOp Config.standard op 0 0) := by
    cases op using opcode_cases with
    | read32 => exact absurd rfl hread
    | write32 => exact absurd rfl hwrite
    | _ => rfl
  unfold tableRow
  rw [hindex]
  clear hindex
  revert op
  decide

/-- An address inside a window selects a register or a hole, and so a row of priority 2 at least. -/
theorem two_le_priority_of_inWindow {a : Word}
    (ha : inWindow Config.standard.timerBase a = true ∨ inWindow Config.standard.picBase a = true) :
    2 ≤ (tableRow (accessRow Config.standard a).read).priority := by
  have hregion : decodeAddr Config.standard a ≠ .unmapped := by
    unfold decodeAddr
    rcases ha with ha | ha
    · simp [ha]
    · simp only [ha, if_true]
      split_ifs <;> simp
  cases hrow : accessRow Config.standard a with
  | reg r => rcases r with (_ | _ | _ | _) | (_ | _ | _ | _) <;> decide
  | timerHole off | picHole off => exact le_rfl
  | unmapped addr =>
    have haddr := addr_accessRow Config.standard a
    have hwf := decodeRead32_wf Config.standard a
    rw [hrow] at haddr
    rw [decodeRead32_eq, hrow] at hwf
    change addr = a at haddr
    exact absurd (haddr ▸ of_decide_eq_true hwf) hregion

/-- Of the READ32 or WRITE32 rows that an address passes, the one it selects has the highest priority. -/
theorem priority_le_accessRow {r : TableRow} (hr : r ∈ opcodeTable)
    (hop : Command.op r.pattern = 0x5#4 ∨ Command.op r.pattern = 0x8#4) {a : Word}
    (ha : a &&& Command.a r.mask = Command.a r.pattern) :
    r.priority ≤ (tableRow (accessRow Config.standard a).read).priority := by
  rcases opcodeTable_access r hr hop with ⟨hmask, hpriority⟩ | ⟨hmask, hpriority, hbase⟩ | hpriority
  · rw [hmask, BitVec.and_allOnes] at ha
    rw [hpriority, ← ha]
  · rw [hmask] at ha
    rw [hpriority]
    refine two_le_priority_of_inWindow (hbase.imp (fun hbase => ?_) fun hbase => ?_)
    · exact (and_windowMask_eq_iff rfl a).mp (ha.trans hbase)
    · exact (and_windowMask_eq_iff rfl a).mp (ha.trans hbase)
  · rw [hpriority]
    exact (opcodeTable_priority _ (tableRow_mem _)).1

/-- The row of the decoded instruction passes the tests of the code and the address. -/
theorem tableRow_decodeOp_passes (op : BitVec 4) (a d : Word) :
    op = Command.op (tableRow (decodeOp Config.standard op a d)).pattern ∧
    a &&& Command.a (tableRow (decodeOp Config.standard op a d)).mask =
      Command.a (tableRow (decodeOp Config.standard op a d)).pattern := by
  have haddr := addr_and_mask (accessRow Config.standard a)
  rw [addr_accessRow] at haddr
  obtain ⟨hop5, hop8, hmask, hpattern, -⟩ := tableRow_access (accessRow Config.standard a) d
  by_cases hread : op = 0x5#4
  · rw [hread, decodeOp_read32, hop5]
    exact ⟨rfl, haddr⟩
  by_cases hwrite : op = 0x8#4
  · rw [hwrite, decodeOp_write32, hop8, hmask, hpattern]
    exact ⟨rfl, haddr⟩
  · obtain ⟨hop, hmask, hpattern, -⟩ := tableRow_of_code hread hwrite a d
    exact ⟨hop, by rw [hmask, hpattern]; exact BitVec.and_zero⟩

/-- No row that passes the tests has a higher priority than the decoded instruction's. -/
theorem priority_le_tableRow_decodeOp {r : TableRow} (hr : r ∈ opcodeTable) {op : BitVec 4} {a : Word}
    (hop : op = Command.op r.pattern) (ha : a &&& Command.a r.mask = Command.a r.pattern) (d : Word) :
    r.priority ≤ (tableRow (decodeOp Config.standard op a d)).priority := by
  obtain ⟨-, -, -, -, hpriority⟩ := tableRow_access (accessRow Config.standard a) d
  by_cases hread : op = 0x5#4
  · rw [hread, decodeOp_read32]
    exact priority_le_accessRow hr (.inl (hop.symm.trans hread)) ha
  by_cases hwrite : op = 0x8#4
  · rw [hwrite, decodeOp_write32, hpriority]
    exact priority_le_accessRow hr (.inr (hop.symm.trans hwrite)) ha
  · obtain ⟨-, -, -, hthree⟩ := tableRow_of_code hread hwrite a d
    rw [hthree]
    exact (opcodeTable_priority r hr).2

/-- Rows that match one command and have the same priority are the same row. -/
theorem eq_of_rowMatches {r r' : TableRow} (hr : r ∈ opcodeTable) (hr' : r' ∈ opcodeTable) {c : Command}
    (h : rowMatches r c = true) (h' : rowMatches r' c = true) (hpriority : r.priority = r'.priority) :
    r = r' := by
  obtain ⟨j, rfl⟩ := mem_opcodeTable_iff.mp hr
  obtain ⟨k, rfl⟩ := mem_opcodeTable_iff.mp hr'
  have hagree : (rowAt j).pattern &&& (rowAt k).mask = (rowAt k).pattern &&& (rowAt j).mask := by
    rw [← of_decide_eq_true h, ← of_decide_eq_true h', BitVec.and_assoc, BitVec.and_assoc,
      BitVec.and_comm (rowAt j).mask]
  exact congrArg rowAt (opcodeTable_separated j k hagree hpriority)

/-- Settles O4: the row is the decoded instruction's. A matching row of the same priority is that row, and
none has a higher one. -/
theorem decoderFollowsTheOpcodeTable : Obligations.DecoderFollowsTheOpcodeTable := by
  unfold Obligations.DecoderFollowsTheOpcodeTable
  intro c
  have hmem := tableRow_mem (decode Config.standard c)
  have hmatches : rowMatches (tableRow (decode Config.standard c)) c = true :=
    (rowMatches_iff hmem c).mpr (tableRow_decodeOp_passes _ _ _)
  refine ⟨tableRow (decode Config.standard c), ⟨hmem, hmatches, fun r hr h => ?_⟩, tableRow_mnemonic _⟩
  obtain ⟨hop, ha⟩ := (rowMatches_iff hr c).mp h
  rcases (priority_le_tableRow_decodeOp hr hop ha (Command.d c)).eq_or_lt with hsame | hlower
  · exact .inl (eq_of_rowMatches hr hmem h hmatches hsame)
  · exact .inr hlower

end Sys2Proof.Machine

/-! The register bus (R80 to R85): each access is one read or one write of a register at its address; a sub-word
access goes through the lane of the containing word. -/

namespace Sys2Proof.Machine

/-! What the registers whose word is not a plain field read and store (R95, R98, R113). -/

theorem readReg_ctrl (s : State) : readReg s (.timer .ctrl) =
    (if s.timer.enabled then 1 else 0) + (if s.timer.irqEnable then 2 else 0) := by
  rw [readReg, readTimerReg]
  cases s.timer.enabled <;> cases s.timer.irqEnable <;> rfl

theorem readReg_status (s : State) :
    readReg s (.timer .status) = BitVec.ofNat 32 s.timer.status.toNat := by
  rw [BitVec.ofNat_toNat]
  rfl

theorem exec_read32 (r : Reg) (s : State) : exec (read32 r) s = .next (s.respond (.rdata32 (readReg s r))) := by
  rcases r with (_ | _ | _ | _) | (_ | _ | _ | _) <;> rfl

/-- Settles O28: CTRL and STATUS read as numbers, PERIOD and COUNT as they stand. -/
theorem read32OfTimerRegisters : Obligations.Read32OfTimerRegisters := by
  unfold Obligations.Read32OfTimerRegisters
  intro s
  rw [← readReg_ctrl, ← readReg_status]
  exact ⟨exec_read32 (.timer .ctrl) s, exec_read32 (.timer .period) s, exec_read32 (.timer .count) s,
    exec_read32 (.timer .status) s⟩

/-- Settles O29: no such read depends on anything but the two bitmaps. -/
theorem read32OfPicRegistersAndElsewhere : Obligations.Read32OfPicRegistersAndElsewhere := by
  unfold Obligations.Read32OfPicRegistersAndElsewhere
  intro s
  exact ⟨exec_read32 (.pic .mask) s, exec_read32 (.pic .pending) s, exec_read32 (.pic .eoi) s,
    exec_read32 (.pic .priority) s, fun _ => rfl, fun _ => rfl, fun _ => rfl⟩

/-- Settles O30: STATUS stores the low byte of the word, the others what they name. -/
theorem write32OfTimerRegisters : Obligations.Write32OfTimerRegisters := by
  unfold Obligations.Write32OfTimerRegisters
  intro s w
  have hstatus : BitVec.ofNat 8 (w.toNat % 256) = w.setWidth 8 := BitVec.eq_of_toNat_eq (by simp)
  rw [hstatus]
  exact ⟨exec_write32 (.timer .ctrl) w s, exec_write32 (.timer .period) w s,
    exec_write32 (.timer .count) w s, exec_write32 (.timer .status) w s⟩

/-- Settles O31: PENDING is write-1-to-clear, read bit by bit. -/
theorem write32OfPicRegistersAndElsewhere : Obligations.Write32OfPicRegistersAndElsewhere := by
  unfold Obligations.Write32OfPicRegistersAndElsewhere
  intro s w
  exact ⟨exec_write32 (.pic .mask) w s,
    ⟨_, fun v => writeOneToClear_getLsbD s.pic.pendingBits w v v.isLt, exec_write32 (.pic .pending) w s⟩,
    exec_write32 (.pic .priority) w s, fun _ => rfl, fun _ => rfl, fun _ => rfl⟩

/-! The register at every address (R28, R41 to R43, R46). -/

theorem regAddr_ctrl (cfg : Config) : regAddr cfg (.timer .ctrl) = cfg.timerBase := BitVec.add_zero _
theorem regAddr_mask (cfg : Config) : regAddr cfg (.pic .mask) = cfg.picBase := BitVec.add_zero _

/-- The eight registers stand at eight addresses, and at no other address is there a register. -/
theorem regAt_eq {cfg : Config} (hwf : cfg.WF) (addr : Word) :
    regAt cfg addr =
      if addr = cfg.timerBase then some (.timer .ctrl)
      else if addr = cfg.timerBase + 0x4#32 then some (.timer .period)
      else if addr = cfg.timerBase + 0x8#32 then some (.timer .count)
      else if addr = cfg.timerBase + 0xC#32 then some (.timer .status)
      else if addr = cfg.picBase then some (.pic .mask)
      else if addr = cfg.picBase + 0x4#32 then some (.pic .pending)
      else if addr = cfg.picBase + 0x8#32 then some (.pic .eoi)
      else if addr = cfg.picBase + 0xC#32 then some (.pic .priority)
      else none := by
  split_ifs with hctrl hperiod hcount hstatus hmask hpending heoi hpriority
  · exact (regAt_eq_some hwf).mpr (hctrl.trans (regAddr_ctrl cfg).symm)
  · exact (regAt_eq_some hwf).mpr hperiod
  · exact (regAt_eq_some hwf).mpr hcount
  · exact (regAt_eq_some hwf).mpr hstatus
  · exact (regAt_eq_some hwf).mpr (hmask.trans (regAddr_mask cfg).symm)
  · exact (regAt_eq_some hwf).mpr hpending
  · exact (regAt_eq_some hwf).mpr heoi
  · exact (regAt_eq_some hwf).mpr hpriority
  · refine Option.eq_none_iff_forall_ne_some.mpr fun r hr => ?_
    have haddr := eq_regAddr_of_regAt hr
    rcases r with (_ | _ | _ | _) | (_ | _ | _ | _)
    · exact hctrl (haddr.trans (regAddr_ctrl cfg))
    · exact hperiod haddr
    · exact hcount haddr
    · exact hstatus haddr
    · exact hmask (haddr.trans (regAddr_mask cfg))
    · exact hpending haddr
    · exact heoi haddr
    · exact hpriority haddr

/-! READ32 and WRITE32 as presented (R53, R60, R80, R81). -/

theorem step_read32 {s : State} {rest : List Input} {a d : Word}
    (hinputs : s.inputs = .command (command 0x5#4 a d) :: rest) :
    step s = .next ((s.setInputs rest).respond (.rdata32 (regRead32 s a))) := by
  rw [step_command hinputs, decode_command]
  exact exec_decodeRead32 (s.setInputs rest) a

theorem step_write32 {s : State} {rest : List Input} {a w : Word}
    (hinputs : s.inputs = .command (command 0x8#4 a w) :: rest) :
    step s = .next ((regWrite32 (s.setInputs rest) a w).respond .nothing) := by
  rw [step_command hinputs, decode_command]
  exact exec_decodeWrite32 (s.setInputs rest) a w

/-- Settles O32: the address decides the register, and what each register reads is known. -/
theorem read32CommandAtEveryAddress : Obligations.Read32CommandAtEveryAddress := by
  unfold Obligations.Read32CommandAtEveryAddress
  intro s rest a d hwf hinputs
  rw [step_read32 hinputs, regRead32, regAt_eq hwf, ← readReg_ctrl, ← readReg_status]
  split_ifs <;> rfl

/-- The vector of an EOI write, as the operand of an ACK_IRQ (R66, R114). -/
theorem eoiVector_eq_signedVector (w : Word) :
    eoiVector w = signedVector (BitVec.ofNat 32 (w.toNat % 256)) := by
  have hlt : w.toNat % 256 < 256 := Nat.mod_lt _ (by decide)
  rw [signedVector, BitVec.toInt_eq_toNat_of_lt] <;> rw [BitVec.toNat_ofNat, Nat.mod_eq_of_lt (by omega)]
  · simp [eoiVector]
  · omega

/-- A write of EOI does what ACK_IRQ of its vector does, and answers nothing (R111, R114). -/
theorem written_eoi {w vec : Word} (hvec : vec = BitVec.ofNat 32 (w.toNat % 256)) (s : State) :
    ∃ t, exec (.ackIrq vec) s = .next t ∧
      written (writeReg s (.pic .eoi) w) = .next { t with response := .nothing } := by
  refine ⟨_, exec_eq _ s, ?_⟩
  rw [writeReg_eoi, eoiVector_eq_signedVector, ← hvec]
  rfl

/-- The mask of the low byte (R114). -/
theorem and_lowByte (w : Word) : w &&& 0xFF#32 = BitVec.ofNat 32 (w.toNat % 256) := by
  refine (and_low_eq_setWidth w 8 (by decide)).trans ?_
  rw [← BitVec.ofNat_toNat, BitVec.extractLsb'_toNat, Nat.shiftRight_zero]

/-- Settles O33: the address decides the register; a write of EOI is compared with the ACK_IRQ of its
low byte. -/
theorem write32CommandAtEveryAddress : Obligations.Write32CommandAtEveryAddress := by
  unfold Obligations.Write32CommandAtEveryAddress
  intro s rest a w hwf hinputs
  obtain ⟨u, hack, heoi⟩ := written_eoi (and_lowByte w) (s.setInputs rest)
  refine ⟨u, hack, ?_⟩
  rw [step_write32 hinputs, regWrite32, State.setInputs_config, regAt_eq hwf]
  split_ifs
  -- EOI is the seventh address of the chain; every other write is the record itself.
  on_goal 7 => exact heoi
  all_goals rfl

/-! What a register reads after a write to it (R87). -/

theorem readReg_writeReg_ctrl (s : State) (w : Word) :
    readReg (writeReg s (.timer .ctrl) w) (.timer .ctrl) = w &&& 0x00000003#32 := by
  have hbits : BitVec.ofBool (w.getLsbD 1) ++ BitVec.ofBool (w.getLsbD 0) = w.extractLsb' 0 2 := by
    apply BitVec.eq_of_getLsbD_eq
    intro i hi
    rw [BitVec.getLsbD_append, BitVec.getLsbD_extractLsb', decide_eq_true hi]
    obtain rfl | rfl : i = 0 ∨ i = 1 := by omega
    · simp
    · simp
  exact (congrArg (BitVec.setWidth 32) hbits).trans (and_low_eq_setWidth w 2 (by decide)).symm

theorem readReg_writeReg_status (s : State) (w : Word) :
    readReg (writeReg s (.timer .status) w) (.timer .status) = w &&& 0x000000FF#32 := by
  rw [and_lowByte]
  exact BitVec.eq_of_toNat_eq (by simp [readReg, readTimerReg, writeTimerReg])

theorem readReg_respond (s : State) (a : Response) (r : Reg) : readReg (s.respond a) r = readReg s r := by
  cases r <;> rfl

/-- A run that begins with a completed step goes on from its next state. -/
theorem run_succ_of_step {M : Host.Core} {s t : M.State} (k : Nat) (h : M.step s = .next t) :
    M.run (k + 1) s = M.run k t := by
  rw [Host.Core.run, h]

theorem step_read32_regAddr {s : State} {rest : List Input} {r : Reg} {a d : Word} (hwf : s.config.WF)
    (ha : a = regAddr s.config r) (hinputs : s.inputs = .command (command 0x5#4 a d) :: rest) :
    step s = .next ((s.setInputs rest).respond (.rdata32 (readReg s r))) := by
  subst ha
  rw [step_read32 hinputs, regRead32_regAddr hwf]

theorem step_write32_regAddr {s : State} {rest : List Input} {r : Reg} {a w : Word} (hwf : s.config.WF)
    (ha : a = regAddr s.config r) (hinputs : s.inputs = .command (command 0x8#4 a w) :: rest) :
    step s = .next ((writeReg (s.setInputs rest) r w).respond .nothing) := by
  subst ha
  have hwrite := regWrite32_regAddr (s := s.setInputs rest) hwf r w
  rw [State.setInputs_config] at hwrite
  rw [step_write32 hinputs, hwrite]

/-- Settles O34: what is read back is known for each of the eight registers. -/
theorem registerRoundTrip : Obligations.RegisterRoundTrip := by
  unfold Obligations.RegisterRoundTrip
  intro s v d r hwf hinputs
  have hwrite := step_write32_regAddr hwf rfl hinputs
  have hread := step_read32_regAddr (r := r) (rest := [])
    (s := (writeReg (s.setInputs [.command (command 0x5#4 (regAddr s.config r) d)]) r v).respond .nothing)
    (a := regAddr s.config r) (by simpa using hwf) (by simp) (writeReg_inputs _ _ _)
  refine ⟨_, (run_succ_of_step 1 hwrite).trans (run_succ_of_step 0 hread), congrArg Response.rdata32 ?_⟩
  rw [readReg_respond]
  rcases r with (_ | _ | _ | _) | (_ | _ | _ | _)
  case timer.ctrl => exact readReg_writeReg_ctrl _ v
  case timer.status => exact readReg_writeReg_status _ v
  all_goals rfl

/-! Sub-word reads (R45, R47, R82, R83). -/

/-- A bit of the lane of an address: `extract8` and `extract16` for their two widths. -/
theorem lane_getLsbD {n i : Nat} (hi : i < n) (w addr : Word) :
    ((w >>> laneShift addr).setWidth n).getLsbD i = w.getLsbD (8 * (addr.toNat % 4) + i) := by
  rw [BitVec.getLsbD_setWidth, decide_eq_true hi, Bool.true_and, BitVec.getLsbD_ushiftRight, laneShift_eq]

/-- Settles O35: both widths take their bits from the word that READ32 answers. -/
theorem subWordReadsTakeTheLane : Obligations.SubWordReadsTakeTheLane := by
  unfold Obligations.SubWordReadsTakeTheLane
  intro s a
  have hword : BitVec.ofNat 32 (a.toNat - a.toNat % 4) = containingWord a := by
    rw [← containingWord_toNat, BitVec.ofNat_toNat, BitVec.setWidth_eq]
  rw [hword]
  exact ⟨_, _, _, exec_decodeRead32 s (containingWord a), fun _ hi => lane_getLsbD hi _ a,
    fun _ hi => lane_getLsbD hi _ a, rfl, rfl⟩

/-! Sub-word writes (R47, R84, R85): one merge for both widths. -/

/-- The word `w` with the `n` bits from byte `k` up replaced by `x`, cut off at bit 31. -/
def mergeAt (k : Nat) (w : Word) {n : Nat} (x : BitVec n) : Word :=
  (w &&& ~~~((BitVec.allOnes n).setWidth 32 <<< (8 * k))) ||| (x.setWidth 32 <<< (8 * k))

theorem merge8_eq_mergeAt (w addr : Word) (b : Byte) : merge8 w addr b = mergeAt (addr.toNat % 4) w b := by
  rw [merge8, lane8, laneShift_eq]
  rfl

theorem merge16_eq_mergeAt (w addr : Word) (h : Half) : merge16 w addr h = mergeAt (addr.toNat % 4) w h := by
  rw [merge16, lane16, laneShift_eq]
  rfl

theorem mergeAt_getLsbD (k : Nat) (w : Word) {n : Nat} (x : BitVec n) {j : Nat} (hj : j < 32) :
    (mergeAt k w x).getLsbD j =
      if 8 * k ≤ j ∧ j < 8 * k + n then x.getLsbD (j - 8 * k) else w.getLsbD j := by
  have hj' : j - 8 * k < 32 := by omega
  simp only [mergeAt, BitVec.getLsbD_or, BitVec.getLsbD_and, BitVec.getLsbD_not, BitVec.getLsbD_shiftLeft,
    BitVec.getLsbD_setWidth, BitVec.getLsbD_allOnes, hj, hj', decide_true, Bool.true_and]
  by_cases hbelow : j < 8 * k
  · have hout : ¬(8 * k ≤ j ∧ j < 8 * k + n) := by omega
    simp [hbelow, hout]
  · by_cases habove : j - 8 * k < n
    · have hin : 8 * k ≤ j ∧ j < 8 * k + n := by omega
      simp [hbelow, habove, hin]
    · have hout : ¬(8 * k ≤ j ∧ j < 8 * k + n) := by omega
      have hzero : x.getLsbD (j - 8 * k) = false := BitVec.getLsbD_of_ge _ _ (by omega)
      simp [hbelow, habove, hout, hzero]

/-- A byte of a register lies in that register's word, at its own lane. -/
theorem regAddr_add_lane {cfg : Config} (hwf : cfg.WF) (r : Reg) {k : Nat} (hk : k < 4) :
    containingWord (regAddr cfg r + BitVec.ofNat 32 k) = regAddr cfg r ∧
      (regAddr cfg r + BitVec.ofNat 32 k).toNat % 4 = k := by
  have hmod := regAddr_mod_four hwf r
  have haddr : (regAddr cfg r + BitVec.ofNat 32 k).toNat = (regAddr cfg r).toNat + k := by
    rw [BitVec.toNat_add, BitVec.toNat_ofNat]
    omega
  have hlane : (regAddr cfg r + BitVec.ofNat 32 k).toNat % 4 = k := by omega
  exact ⟨(containingWord_eq_regAddr hwf).mpr (by rw [hlane, haddr]), hlane⟩

theorem exec_write8_regAddr {s : State} (hwf : s.config.WF) (r : Reg) {k : Nat} (hk : k < 4) (b : Byte) :
    exec (.write8 (regAddr s.config r + BitVec.ofNat 32 k) b) s =
      written (writeReg s r (mergeAt k (readReg s r) b)) := by
  obtain ⟨hword, hlane⟩ := regAddr_add_lane hwf r hk
  change written (storeByte s _ b) = _
  rw [storeByte, merge8_eq_mergeAt, hword, hlane, regRead32_regAddr hwf, regWrite32_regAddr hwf]

theorem exec_write16_regAddr {s : State} (hwf : s.config.WF) (r : Reg) {k : Nat} (hk : k < 4) (h : Half) :
    exec (.write16 (regAddr s.config r + BitVec.ofNat 32 k) h) s =
      written (writeReg s r (mergeAt k (readReg s r) h)) := by
  obtain ⟨hword, hlane⟩ := regAddr_add_lane hwf r hk
  change written (storeHalf s _ h) = _
  rw [storeHalf, merge16_eq_mergeAt, hword, hlane, regRead32_regAddr hwf, regWrite32_regAddr hwf]

/-- Settles O36: the merged word is stored whole. -/
theorem write8StoresOneByte : Obligations.Write8StoresOneByte := by
  unfold Obligations.Write8StoresOneByte
  intro s k b hwf hk
  refine ⟨⟨_, fun _ => mergeAt_getLsbD k _ b, exec_write8_regAddr hwf (.timer .period) hk b⟩,
    ⟨_, fun _ => mergeAt_getLsbD k _ b, exec_write8_regAddr hwf (.timer .count) hk b⟩,
    _, fun _ => mergeAt_getLsbD k _ b, ?_⟩
  rw [← regAddr_mask s.config]
  exact exec_write8_regAddr hwf (.pic .mask) hk b

/-- Settles O37: as for one byte; the merge has no bit past bit 31. -/
theorem write16StoresOneHalfWord : Obligations.Write16StoresOneHalfWord := by
  unfold Obligations.Write16StoresOneHalfWord
  intro s k h hwf hk
  refine ⟨⟨_, fun _ => mergeAt_getLsbD k _ h, exec_write16_regAddr hwf (.timer .period) hk h⟩,
    ⟨_, fun _ => mergeAt_getLsbD k _ h, exec_write16_regAddr hwf (.timer .count) hk h⟩,
    _, fun _ => mergeAt_getLsbD k _ h, ?_⟩
  rw [← regAddr_mask s.config]
  exact exec_write16_regAddr hwf (.pic .mask) hk h

/-- A bit of PENDING outside the lane is written back as it stands, and so clears itself (R113, R180). -/
theorem writeOneToClear_mergeAt_getLsbD (k : Nat) (p : Word) {n : Nat} (x : BitVec n) {j : Nat} (hj : j < 32) :
    (writeOneToClear p (mergeAt k p x)).getLsbD j =
      (p.getLsbD j && decide (8 * k ≤ j ∧ j < 8 * k + n) && !x.getLsbD (j - 8 * k)) := by
  rw [writeOneToClear_getLsbD p _ j hj, mergeAt_getLsbD k p x hj]
  by_cases hlane : 8 * k ≤ j ∧ j < 8 * k + n
  · rw [if_pos hlane, decide_eq_true hlane, Bool.and_true]
  · rw [if_neg hlane, decide_eq_false hlane, Bool.and_not_self, Bool.and_false, Bool.false_and]

/-- Settles O39: the merged word is a write-1-to-clear mask. -/
theorem subWordWritesOfPendingClearOutsideTheLane : Obligations.SubWordWritesOfPendingClearOutsideTheLane := by
  unfold Obligations.SubWordWritesOfPendingClearOutsideTheLane
  intro s k b h hwf hk
  exact ⟨⟨_, fun _ => writeOneToClear_mergeAt_getLsbD k _ b, exec_write8_regAddr hwf (.pic .pending) hk b⟩,
    _, fun _ => writeOneToClear_mergeAt_getLsbD k _ h, exec_write16_regAddr hwf (.pic .pending) hk h⟩

/-! CTRL, STATUS and EOI use only the low byte of what is written (R95, R98, R114), so lane 0 writes the datum
and every other lane writes the register's own word back. -/

/-- The registers that use only the low byte of a word written. -/
def UsesLowByte (r : Reg) : Prop := r = .timer .ctrl ∨ r = .timer .status ∨ r = .pic .eoi

theorem writeReg_eq_of_lowByte {r : Reg} (hr : UsesLowByte r) (s : State) {w w' : Word}
    (h : ∀ i < 8, w.getLsbD i = w'.getLsbD i) : writeReg s r w = writeReg s r w' := by
  have hbyte : w.extractLsb' 0 8 = w'.extractLsb' 0 8 := by
    apply BitVec.eq_of_getLsbD_eq
    intro i hi
    simpa [hi] using h i hi
  obtain rfl | rfl | rfl := hr
  · simp only [writeReg_timer, writeTimerReg, h 0 (by decide), h 1 (by decide)]
  · simp only [writeReg_timer, writeTimerReg, BitVec.setWidth_eq_extractLsb' (show 8 ≤ 32 by decide), hbyte]
  · simp only [writeReg_eoi, eoiVector, hbyte]

/-- A write at lane 0 has the datum's low byte (R84, R85). -/
theorem writeReg_mergeAt_zero {r : Reg} (hr : UsesLowByte r) (s : State) (w : Word) {n : Nat} (hn : 8 ≤ n)
    (x : BitVec n) : writeReg s r (mergeAt 0 w x) = writeReg s r (x.setWidth 32) := by
  refine writeReg_eq_of_lowByte hr s fun i hi => ?_
  have hin : 8 * 0 ≤ i ∧ i < 8 * 0 + n := by omega
  have hword : i < 32 := by omega
  rw [mergeAt_getLsbD 0 w x hword, if_pos hin, BitVec.getLsbD_setWidth, decide_eq_true hword]
  rfl

/-- A write at any other lane has the low byte of the word before (R84, R85). -/
theorem writeReg_mergeAt_pos {r : Reg} (hr : UsesLowByte r) (s : State) (w : Word) {n k : Nat} (hk : 0 < k)
    (x : BitVec n) : writeReg s r (mergeAt k w x) = writeReg s r w := by
  refine writeReg_eq_of_lowByte hr s fun i hi => ?_
  have hout : ¬(8 * k ≤ i ∧ i < 8 * k + n) := by omega
  rw [mergeAt_getLsbD k w x (by omega), if_neg hout]

/-- WRITE8 and WRITE16 of such a register at lane 0: the WRITE32 of the datum. -/
theorem exec_subWord_lowByte_zero {s : State} (hwf : s.config.WF) {r : Reg} (hr : UsesLowByte r) (b : Byte)
    (h : Half) :
    exec (.write8 (regAddr s.config r) b) s = written (writeReg s r (b.setWidth 32)) ∧
      exec (.write16 (regAddr s.config r) h) s = written (writeReg s r (h.setWidth 32)) := by
  have hwrite8 := exec_write8_regAddr hwf r (k := 0) (by decide) b
  have hwrite16 := exec_write16_regAddr hwf r (k := 0) (by decide) h
  rw [BitVec.add_zero, writeReg_mergeAt_zero hr s _ (by decide)] at hwrite8 hwrite16
  exact ⟨hwrite8, hwrite16⟩

/-- WRITE8 and WRITE16 of such a register at any other lane: the WRITE32 of what it reads. -/
theorem exec_subWord_lowByte_pos {s : State} (hwf : s.config.WF) {r : Reg} (hr : UsesLowByte r) {k : Nat}
    (hpos : 0 < k) (hk : k < 4) (b : Byte) (h : Half) :
    exec (.write8 (regAddr s.config r + BitVec.ofNat 32 k) b) s = written (writeReg s r (readReg s r)) ∧
      exec (.write16 (regAddr s.config r + BitVec.ofNat 32 k) h) s = written (writeReg s r (readReg s r)) := by
  rw [exec_write8_regAddr hwf r hk, exec_write16_regAddr hwf r hk, writeReg_mergeAt_pos hr s _ hpos,
    writeReg_mergeAt_pos hr s _ hpos]
  exact ⟨rfl, rfl⟩

/-! Writing CTRL or STATUS: a datum of any width, and the word that the register reads (R95, R98). -/

theorem writeReg_ctrl_setWidth (s : State) {n : Nat} (x : BitVec n) :
    writeReg s (.timer .ctrl) (x.setWidth 32) =
      s.setTimer { s.timer with enabled := x.getLsbD 0, irqEnable := x.getLsbD 1 } := by
  simp [writeTimerReg]

theorem writeReg_status_setWidth (s : State) {n : Nat} (x : BitVec n) :
    writeReg s (.timer .status) (x.setWidth 32) = s.setTimer { s.timer with status := x.setWidth 8 } := by
  rw [writeReg_timer, writeTimerReg, BitVec.setWidth_setWidth_of_le _ (by decide)]

theorem writeReg_readReg_ctrl (s : State) : writeReg s (.timer .ctrl) (readReg s (.timer .ctrl)) = s := by
  have hbits : ∀ i e : Bool, (BitVec.ofBool i ++ BitVec.ofBool e).getLsbD 0 = e ∧
      (BitVec.ofBool i ++ BitVec.ofBool e).getLsbD 1 = i := by decide
  obtain ⟨henabled, hirq⟩ := hbits s.timer.irqEnable s.timer.enabled
  rw [readReg, readTimerReg, writeReg_ctrl_setWidth, henabled, hirq]
  rfl

theorem writeReg_readReg_status (s : State) : writeReg s (.timer .status) (readReg s (.timer .status)) = s := by
  rw [readReg, readTimerReg, writeReg_status_setWidth, BitVec.setWidth_eq]
  rfl

/-- Settles O38: at lane 0 the datum's low byte, elsewhere the register's own. -/
theorem subWordWritesOfCtrlAndStatus : Obligations.SubWordWritesOfCtrlAndStatus := by
  unfold Obligations.SubWordWritesOfCtrlAndStatus
  intro s b h hwf
  have hctrl : UsesLowByte (.timer .ctrl) := .inl rfl
  have hstatus : UsesLowByte (.timer .status) := .inr (.inl rfl)
  obtain ⟨hctrl8, hctrl16⟩ := exec_subWord_lowByte_zero hwf hctrl b h
  obtain ⟨hstatus8, hstatus16⟩ := exec_subWord_lowByte_zero hwf hstatus b h
  rw [regAddr_ctrl, writeReg_ctrl_setWidth] at hctrl8 hctrl16
  rw [writeReg_status_setWidth] at hstatus8 hstatus16
  rw [BitVec.setWidth_eq] at hstatus8
  rw [← BitVec.ofNat_toNat] at hstatus16
  refine ⟨hctrl8, hctrl16, hstatus8, hstatus16, fun k hpos hk => ?_⟩
  obtain ⟨hctrl8, hctrl16⟩ := exec_subWord_lowByte_pos hwf hctrl hpos hk b h
  obtain ⟨hstatus8, hstatus16⟩ := exec_subWord_lowByte_pos hwf hstatus hpos hk b h
  rw [regAddr_ctrl, writeReg_readReg_ctrl] at hctrl8 hctrl16
  rw [writeReg_readReg_status] at hstatus8 hstatus16
  exact ⟨hctrl8, hctrl16, hstatus8, hstatus16⟩

/-- Settles O40: EOI reads 0, so off lane 0 the word written back names vector 0. -/
theorem subWordWritesOfEoi : Obligations.SubWordWritesOfEoi := by
  unfold Obligations.SubWordWritesOfEoi
  intro s b h hwf
  have heoi : UsesLowByte (.pic .eoi) := .inr (.inr rfl)
  obtain ⟨hwrite8, hwrite16⟩ := exec_subWord_lowByte_zero hwf heoi b h
  have hvec8 : BitVec.ofNat 32 b.toNat = BitVec.ofNat 32 ((b.setWidth 32).toNat % 256) := by
    rw [BitVec.toNat_setWidth_of_le (by decide), Nat.mod_eq_of_lt b.isLt]
  have hvec16 : BitVec.ofNat 32 (h.toNat % 256) = BitVec.ofNat 32 ((h.setWidth 32).toNat % 256) := by
    rw [BitVec.toNat_setWidth_of_le (by decide)]
  refine ⟨?_, ?_, fun k hpos hk => ?_⟩
  · obtain ⟨t, hack, hwritten⟩ := written_eoi (w := b.setWidth 32) hvec8 s
    exact ⟨t, hack, hwrite8.trans hwritten⟩
  · obtain ⟨t, hack, hwritten⟩ := written_eoi (w := h.setWidth 32) hvec16 s
    exact ⟨t, hack, hwrite16.trans hwritten⟩
  · obtain ⟨hwrite8, hwrite16⟩ := exec_subWord_lowByte_pos hwf heoi hpos hk b h
    obtain ⟨t, hack, hwritten⟩ := written_eoi (w := 0) rfl s
    exact ⟨t, hack, hwrite8.trans hwritten, hwrite16.trans hwritten⟩

end Sys2Proof.Machine

/-! TICK and the timer's cadence (R89 to R94): one lemma per arm, then the balance that a run of TICKs keeps. -/

namespace Sys2Proof.Machine

theorem exec_tick (s : State) : exec .tick s = .next ((tickBlock s).respond .nothing) := exec_eq .tick s

/-- A decrement of a nonzero word does not wrap (R93, R99). -/
theorem toNat_sub_one_add_one {w : Word} (hw : w ≠ 0) : (w - 1).toNat + 1 = w.toNat := by bv_omega

/-- The idle arm is closed to an enabled timer with a period (R91). -/
theorem not_idle {t : Timer} (henabled : t.enabled = true) (hperiod : t.period ≠ 0) :
    ¬(t.enabled = false ∨ t.period = 0) :=
  not_or.mpr ⟨by simp [henabled], hperiod⟩

theorem tickBlock_of_idle {s : State} (hidle : s.timer.enabled = false ∨ s.timer.period = 0) :
    tickBlock s = s.setCycles (s.cycles + 1) :=
  timerTick_of_idle (s := s.setCycles (s.cycles + 1)) hidle

theorem tickBlock_of_count_eq_zero {s : State} (henabled : s.timer.enabled = true)
    (hperiod : s.timer.period ≠ 0) (hcount : s.timer.count = 0) :
    tickBlock s = fire (s.setCycles (s.cycles + 1)) :=
  timerTick_of_count_eq_zero (s := s.setCycles (s.cycles + 1)) (not_idle henabled hperiod) hcount

theorem tickBlock_of_count_ne_zero {s : State} (henabled : s.timer.enabled = true)
    (hperiod : s.timer.period ≠ 0) (hcount : s.timer.count ≠ 0) :
    tickBlock s =
      (s.setCycles (s.cycles + 1)).setTimer { s.timer with count := s.timer.count - 1 } :=
  timerTick_of_count_ne_zero (s := s.setCycles (s.cycles + 1)) (not_idle henabled hperiod) hcount

/-- Settles O12: the premises of each clause choose its arm. -/
theorem tickTakesExactlyOneArm : Obligations.TickTakesExactlyOneArm := by
  unfold Obligations.TickTakesExactlyOneArm
  intro s
  refine ⟨fun hidle => ?_, fun henabled hperiod hcount => ?_, fun henabled hperiod hcount => ?_⟩
  · rw [exec_tick, tickBlock_of_idle hidle]
    rfl
  · rw [exec_tick, tickBlock_of_count_eq_zero henabled hperiod hcount, fire_eq]
    rfl
  · rw [exec_tick, tickBlock_of_count_ne_zero henabled hperiod hcount]
    exact ⟨toNat_sub_one_add_one hcount, rfl⟩

/-! Runs of operations (R53, R75). -/

theorem runOps_append {ops : List Instr} {s t : State} (h : runOps ops s = .next t) (more : List Instr) :
    runOps (ops ++ more) s = runOps more t := by
  induction ops generalizing s with
  | nil => cases h; rfl
  | cons i rest ih =>
    simp only [List.cons_append, runOps, exec_eq] at h ⊢
    exact ih h

theorem ticksMacro_succ (n : Nat) : ticksMacro (n + 1) = ticksMacro n ++ [.tick] := List.replicate_succ'

/-- One TICK more at the end of a run of TICKs. -/
theorem runOps_ticksMacro_succ {n : Nat} {s t : State} (h : runOps (ticksMacro n) s = .next t) :
    runOps (ticksMacro (n + 1)) s = .next ((tickBlock t).respond .nothing) := by
  rw [ticksMacro_succ, runOps_append h]
  rfl

/-- How `t` stands to `s` after `n` TICKs of which `fires` fired. Every TICK takes one from the count or
fires and adds the period to it, so each fire pays for `period + 1` TICKs. -/
structure TickedFrom (s t : State) (n fires : Nat) : Prop where
  cycles : t.cycles = s.cycles + BitVec.ofNat 64 n
  enabled : t.timer.enabled = s.timer.enabled
  period : t.timer.period = s.timer.period
  events : t.timer.eventsGenerated = s.timer.eventsGenerated + BitVec.ofNat 64 fires
  balance : t.timer.count.toNat + n = s.timer.count.toNat + fires * (s.timer.period.toNat + 1)
  reloaded : fires ≠ 0 → t.timer.count.toNat ≤ s.timer.period.toNat

theorem add_ofNat_succ (x : DWord) (n : Nat) :
    x + BitVec.ofNat 64 n + 1 = x + BitVec.ofNat 64 (n + 1) := by
  rw [BitVec.ofNat_add, ← BitVec.add_assoc]
  rfl

namespace TickedFrom

theorem refl (s : State) : TickedFrom s s 0 0 where
  cycles := (BitVec.add_zero _).symm
  enabled := rfl
  period := rfl
  events := (BitVec.add_zero _).symm
  balance := by omega
  reloaded h := absurd rfl h

/-- The firing arm: one fire more, and the count reloaded (R92). -/
theorem fire {s t : State} {n fires : Nat} (h : TickedFrom s t n fires) (hcount : t.timer.count = 0) :
    TickedFrom s (Machine.fire (t.setCycles (t.cycles + 1))) (n + 1) (fires + 1) where
  cycles := by rw [fire_cycles, State.setCycles_cycles, h.cycles, add_ofNat_succ]
  enabled := by rw [fire_eq]; exact h.enabled
  period := by rw [fire_eq]; exact h.period
  events := by rw [fire_eventsGenerated, State.setCycles_timer, h.events, add_ofNat_succ]
  balance := by
    have hbalance := h.balance
    have hzero : t.timer.count.toNat = 0 := congrArg BitVec.toNat hcount
    rw [fire_eq, Nat.succ_mul]
    simp only [State.setCycles_timer, h.period]
    omega
  reloaded _ := by rw [fire_eq]; exact (congrArg BitVec.toNat h.period).le

/-- The counting arm: the count one less (R93). -/
theorem decrement {s t : State} {n fires : Nat} (h : TickedFrom s t n fires) (hcount : t.timer.count ≠ 0) :
    TickedFrom s ((t.setCycles (t.cycles + 1)).setTimer { t.timer with count := t.timer.count - 1 })
      (n + 1) fires where
  cycles := by rw [State.setTimer_cycles, State.setCycles_cycles, h.cycles, add_ofNat_succ]
  enabled := h.enabled
  period := h.period
  events := h.events
  balance := by
    have hone := toNat_sub_one_add_one hcount
    have hbalance := h.balance
    simp only [State.setTimer_timer]
    omega
  reloaded hfires := by
    have hle := h.reloaded hfires
    rw [← toNat_sub_one_add_one hcount] at hle
    exact Nat.le_of_succ_le hle

theorem respond {s t : State} {n fires : Nat} (h : TickedFrom s t n fires) (r : Response) :
    TickedFrom s (t.respond r) n fires :=
  ⟨h.cycles, h.enabled, h.period, h.events, h.balance, h.reloaded⟩

/-- No fire before the count has run down (R94). -/
theorem fires_eq_zero {s t : State} {n fires : Nat} (h : TickedFrom s t n fires)
    (hn : n ≤ s.timer.count.toNat) : fires = 0 := by
  by_contra hfires
  have hpaid : s.timer.period.toNat + 1 ≤ fires * (s.timer.period.toNat + 1) :=
    Nat.le_mul_of_pos_left _ (Nat.pos_of_ne_zero hfires)
  have hbalance := h.balance
  have hreloaded := h.reloaded hfires
  omega

/-- Once the count has run down, the TICKs since the first fire make one round of `period + 1` for each
fire but the first, and what is left is what the count has come down from the period (R94). -/
theorem ticks_since_first_fire {s t : State} {n fires : Nat} (h : TickedFrom s t n fires)
    (hn : s.timer.count.toNat < n) :
    fires ≠ 0 ∧ t.timer.count.toNat ≤ s.timer.period.toNat ∧
      n - s.timer.count.toNat - 1 =
        (s.timer.period.toNat - t.timer.count.toNat) + (s.timer.period.toNat + 1) * (fires - 1) := by
  have hbalance := h.balance
  cases fires with
  | zero => omega
  | succ rounds =>
    have hreloaded := h.reloaded rounds.succ_ne_zero
    rw [Nat.succ_mul, Nat.mul_comm] at hbalance
    rw [Nat.add_sub_cancel]
    exact ⟨rounds.succ_ne_zero, hreloaded, by omega⟩

/-- The count and the number of fires in closed form (R94). -/
theorem closed_form {s t : State} {n fires : Nat} (h : TickedFrom s t n fires)
    (hn : s.timer.count.toNat < n) :
    t.timer.count.toNat =
        s.timer.period.toNat - (n - s.timer.count.toNat - 1) % (s.timer.period.toNat + 1) ∧
      fires = (n - s.timer.count.toNat - 1) / (s.timer.period.toNat + 1) + 1 := by
  obtain ⟨hfires, hreloaded, hsince⟩ := h.ticks_since_first_fire hn
  have hleft : s.timer.period.toNat - t.timer.count.toNat < s.timer.period.toNat + 1 := by omega
  rw [hsince, Nat.add_mul_mod_self_left, Nat.mod_eq_of_lt hleft,
    Nat.add_mul_div_left _ _ (Nat.succ_pos _), Nat.div_eq_of_lt hleft]
  omega

end TickedFrom

/-- TICKs of an enabled timer with a period, by induction on their number. -/
theorem ticksMacro_tickedFrom {s : State} (henabled : s.timer.enabled = true) (hperiod : s.timer.period ≠ 0)
    (n : Nat) : ∃ t fires, runOps (ticksMacro n) s = .next t ∧ TickedFrom s t n fires := by
  induction n with
  | zero => exact ⟨s, 0, rfl, .refl s⟩
  | succ n ih =>
    obtain ⟨t, fires, hrun, hticked⟩ := ih
    have henabled' : t.timer.enabled = true := hticked.enabled.trans henabled
    have hperiod' : t.timer.period ≠ 0 := hticked.period ▸ hperiod
    rw [runOps_ticksMacro_succ hrun]
    by_cases hcount : t.timer.count = 0
    · rw [tickBlock_of_count_eq_zero henabled' hperiod' hcount]
      exact ⟨_, fires + 1, rfl, (hticked.fire hcount).respond .nothing⟩
    · rw [tickBlock_of_count_ne_zero henabled' hperiod' hcount]
      exact ⟨_, fires, rfl, (hticked.decrement hcount).respond .nothing⟩

/-- Settles O13: the balance of the count decides how many of the TICKs fired. -/
theorem firingCadence : Obligations.FiringCadence := by
  unfold Obligations.FiringCadence
  intro s n henabled hperiod
  obtain ⟨t, fires, hrun, hticked⟩ := ticksMacro_tickedFrom henabled hperiod n
  refine ⟨t, hrun, hticked.cycles, hticked.enabled.trans henabled, hticked.period, fun hn => ?_, fun hn => ?_⟩
  · have hbalance := hticked.balance
    have hevents := hticked.events
    rw [hticked.fires_eq_zero hn] at hbalance hevents
    exact ⟨by omega, hevents.trans (BitVec.add_zero _)⟩
  · obtain ⟨hcount, hfires⟩ := hticked.closed_form hn
    exact ⟨hcount, hfires ▸ hticked.events⟩

end Sys2Proof.Machine

/-! The public contract (R106, R147): a vector that was never raised stays quiet under every action but its
own SIGNAL and the timer's fire, which raises vector 0 alone. -/

namespace Sys2Proof.Machine

/-- Vector `v` was never raised: no request, no firing cycle, no sample. -/
def Quiet (s : State) (v : VectorIx) : Prop :=
  isPending s.pic v = false ∧ s.pic.lec[v] = 0 ∧ entry s.metrics v = emptyAcc binary64Ops

/-- A vector stays quiet where no request is raised and no firing cycle recorded: nothing is there to fold. -/
theorem quiet_of_no_raise {s t : State} {v : VectorIx} (hs : Quiet s v)
    (hpending : t.pic.pendingBits.getLsbD v = true → s.pic.pendingBits.getLsbD v = true)
    (hlec : t.pic.lec[v] = s.pic.lec[v] ∨ t.pic.lec[v] = 0) (hentry : KeepsOrFolds s t v) : Quiet t v := by
  obtain ⟨hnot, hzero, hempty⟩ := hs
  refine ⟨?_, ?_, ?_⟩
  · exact Bool.eq_false_iff.mpr fun h => Bool.eq_false_iff.mp hnot (hpending h)
  · exact hlec.elim (·.trans hzero) id
  · rcases hentry with hkept | ⟨-, hrecorded, -⟩
    · exact hkept.trans hempty
    · exact absurd hzero hrecorded

theorem reset_quiet {s : State} (hpic : s.pic = Pic.reset) (hmetrics : s.metrics = Metrics.reset)
    (v : VectorIx) : Quiet s v := by
  refine ⟨?_, ?_, ?_⟩
  · simp [isPending, hpic, Pic.reset]
  · simp [hpic, Pic.reset]
  · rw [hmetrics]
    exact entry_reset v

/-- A tick records a firing cycle for vector 0 at most (R92). -/
theorem tickBlock_lec_of_ne_zero {v : VectorIx} (hv : v ≠ 0) (s : State) :
    (tickBlock s).pic.lec[v] = s.pic.lec[v] := by
  rcases tickBlock_cases s with ⟨-, e⟩ | ⟨-, -, -, e⟩ | ⟨-, -, -, e⟩ <;> rw [e]
  · rfl
  · rw [fire_pic]
    split
    · have hne : vectorInRange 0 ≠ some v := fun h => hv (by simpa using h.symm)
      rw [signal_lec, if_neg hne]
      rfl
    · rfl
  · rfl

theorem tickBlock_quiet {s : State} {v : VectorIx} (hv : v ≠ 0) (hs : Quiet s v) : Quiet (tickBlock s) v :=
  quiet_of_no_raise hs (fun h => absurd (tickBlock_raises hs.1 h).1 hv)
    (.inl (tickBlock_lec_of_ne_zero hv s)) (.inl (congrArg (entry · v) (tickBlock_metrics s)))

theorem acknowledge_quiet {s : State} {v : VectorIx} (hs : Quiet s v) (vec : Int) :
    Quiet (acknowledge vec s) v :=
  quiet_of_no_raise hs pending_of_acknowledge (acknowledge_lec_cases vec s v)
    (acknowledge_keepsOrFolds vec s v)

/-- A register write leaves every firing cycle, or consumes it (R112 to R115). -/
theorem writeReg_lec_cases (s : State) (r : Reg) (w : Word) (v : VectorIx) :
    (writeReg s r w).pic.lec[v] = s.pic.lec[v] ∨ (writeReg s r w).pic.lec[v] = 0 := by
  rcases r with r | _ | _ | _ | _
  case pic.eoi => exact acknowledge_lec_cases _ s v
  all_goals exact .inl rfl

theorem writeReg_quiet {s : State} {v : VectorIx} (hs : Quiet s v) (r : Reg) (w : Word) :
    Quiet (writeReg s r w) v :=
  quiet_of_no_raise hs pending_of_writeReg (writeReg_lec_cases s r w v) (writeReg_keepsOrFolds s r w v)

theorem perform_quiet {s : State} {v : VectorIx} (hv : v ≠ 0) (hs : Quiet s v) {a : Action}
    (ha : ∀ vec, a ≠ .signal vec) : Quiet (a.perform s) v := by
  cases a with
  | idle => exact hs
  | tick => exact tickBlock_quiet hv hs
  | reset => exact reset_quiet rfl rfl v
  | signal vec => exact absurd rfl (ha vec)
  | acknowledge vec => exact acknowledge_quiet hs vec
  | write r w => exact writeReg_quiet hs r w

/-- Decoding keeps the operation code: the canonical word is the instruction's own (R61, R62). -/
theorem opcode_of_decode_signal {cfg : Config} {c : Command} {vec : Word}
    (h : decode cfg c = .signal vec) : Command.op c = 0xC#4 := by
  have hcanonical : Command.op (canonicalCommand c) = Command.op c := by
    rw [← command_fields c, canonicalCommand_command, command_op, command_op]
  rw [← hcanonical, ← encode_decode cfg c, h]
  exact Laws.OperationCode.signal vec cfg

/-- `step_cases`, where a signal has the code of SIGNAL among the presentations (R106). -/
theorem step_cases_signal {s t : State} (h : step s = .next t) :
    ∃ (a : Action) (r : Response), t = (a.perform (s.setInputs s.inputs.tail)).respond r ∧
      ∀ vec, a = .signal vec → ∃ c, Input.command c ∈ s.inputs ∧ Command.op c = 0xC#4 := by
  cases hinputs : s.inputs with
  | nil =>
    simp only [step, nextInput_nil hinputs, Host.Outcome.next.injEq] at h
    exact ⟨.idle, s.response, by rw [← h, List.tail_nil, ← hinputs]; rfl, nofun⟩
  | cons input rest =>
    cases input with
    | command c =>
      obtain ⟨a, r, hdoes, he⟩ := exec_cases (decode s.config c) (s.setInputs rest)
      rw [step_command hinputs, he, Host.Outcome.next.injEq] at h
      refine ⟨a, r, h.symm, ?_⟩
      rintro _ rfl
      cases hdoes with
      | signal vec hi => exact ⟨c, List.mem_cons_self, opcode_of_decode_signal hi⟩
    | hardwareReset =>
      simp only [step, nextInput_cons hinputs, Host.Outcome.next.injEq] at h
      exact ⟨.reset, .nothing, h.symm, nofun⟩

/-- Settles O56: no presentation signals, and of the other actions none raises a vector from 1 on. -/
theorem everyStepKeepsThePublicContract : Obligations.EveryStepKeepsThePublicContract := by
  unfold Obligations.EveryStepKeepsThePublicContract
  rintro s t ⟨hinputs, hquiet⟩ hstep
  obtain ⟨a, r, rfl, hsignal⟩ := step_cases_signal hstep
  have ha (vec : Int) : a ≠ .signal vec := fun h => by
    obtain ⟨c, hc, hop⟩ := hsignal vec h
    exact hinputs c hc hop
  refine ⟨fun c hc => hinputs c ?_, fun v hv => ?_⟩
  · simp only [State.respond_inputs, perform_inputs, State.setInputs_inputs] at hc
    exact List.mem_of_mem_tail hc
  · exact perform_quiet (s := s.setInputs s.inputs.tail) hv (hquiet v hv) ha

end Sys2Proof.Machine

/-! The mask (R20, R107): every action commutes with replacing it, and only `Resolve` and the reads of MASK
see it. -/

namespace Sys2Proof.Machine

/-- The state with another mask. -/
def State.withMask (s : State) (m : Word) : State :=
  { s with pic := { s.pic with maskBits := m } }

@[simp] theorem State.withMask_timer (s : State) (m : Word) : (s.withMask m).timer = s.timer := rfl
@[simp] theorem State.withMask_config (s : State) (m : Word) : (s.withMask m).config = s.config := rfl
@[simp] theorem State.withMask_lec (s : State) (m : Word) : (s.withMask m).pic.lec = s.pic.lec := rfl

theorem readReg_withMask {r : Reg} (hr : r ≠ .pic .mask) (s : State) (m : Word) :
    readReg (s.withMask m) r = readReg s r := by
  rcases r with r | _ | _ | _ | _
  case pic.mask => exact absurd rfl hr
  all_goals rfl

theorem regRead32_withMask {s : State} {addr : Word} (haddr : regAt s.config addr ≠ some (.pic .mask))
    (m : Word) : regRead32 (s.withMask m) addr = regRead32 s addr := by
  unfold regRead32
  rw [State.withMask_config]
  cases hr : regAt s.config addr with
  | none => rfl
  | some r => exact readReg_withMask (fun h => haddr (h ▸ hr)) s m

theorem answerOf_withMask {i : Instr} {s : State} (hpending : i ≠ .irqPending) (hread : i ≠ .read32PicMask)
    (hread8 : ∀ a, i = .read8 a → regAt s.config (containingWord a) ≠ some (.pic .mask))
    (hread16 : ∀ a, i = .read16 a → regAt s.config (containingWord a) ≠ some (.pic .mask)) (m : Word) :
    answerOf (s.withMask m) i = answerOf s i := by
  cases i with
  | irqPending => exact absurd rfl hpending
  | read32PicMask => exact absurd rfl hread
  | read8 a => simp only [answerOf_read8, byteAt, regRead32_withMask (hread8 a rfl)]
  | read16 a => simp only [answerOf_read16, halfAt, regRead32_withMask (hread16 a rfl)]
  | _ => rfl

theorem signal_withMask (vec : Int) (s : State) (m : Word) :
    signal vec (s.withMask m) = (signal vec s).withMask m := by
  unfold signal
  split <;> rfl

theorem acknowledge_withMask (vec : Int) (s : State) (m : Word) :
    acknowledge vec (s.withMask m) = (acknowledge vec s).withMask m := by
  unfold acknowledge acknowledgeVector
  split
  · rfl
  · rw [State.withMask_lec]
    split <;> rfl

/-- A write to MASK overwrites both masks alike; every other write leaves both (R112). -/
theorem writeReg_withMask (s : State) (m : Word) (r : Reg) (w : Word) :
    ∃ m', writeReg (s.withMask m) r w = (writeReg s r w).withMask m' := by
  rcases r with r | _ | _ | _ | _
  case pic.mask => exact ⟨w, rfl⟩
  case pic.eoi => exact ⟨m, acknowledge_withMask _ s m⟩
  all_goals exact ⟨m, rfl⟩

theorem fire_withMask (s : State) (m : Word) : fire (s.withMask m) = (fire s).withMask m := by
  rw [fire_eq, fire_eq, State.withMask_timer]
  split <;> rfl

/-- The arm that the timer takes does not depend on the mask (R90). -/
theorem timerTick_withMask (s : State) (m : Word) : timerTick (s.withMask m) = (timerTick s).withMask m := by
  by_cases hidle : s.timer.enabled = false ∨ s.timer.period = 0
  · rw [timerTick_of_idle hidle, timerTick_of_idle (s := s.withMask m) hidle]
  · by_cases hcount : s.timer.count = 0
    · rw [timerTick_of_count_eq_zero hidle hcount,
        timerTick_of_count_eq_zero (s := s.withMask m) hidle hcount, fire_withMask]
    · rw [timerTick_of_count_ne_zero hidle hcount,
        timerTick_of_count_ne_zero (s := s.withMask m) hidle hcount]
      rfl

theorem perform_withMask (a : Action) (s : State) (m : Word) :
    ∃ m', a.perform (s.withMask m) = (a.perform s).withMask m' := by
  cases a with
  | idle => exact ⟨m, rfl⟩
  | tick => exact ⟨m, timerTick_withMask (s.setCycles (s.cycles + 1)) m⟩
  | reset => exact ⟨0, rfl⟩
  | signal vec => exact ⟨m, signal_withMask vec s m⟩
  | acknowledge vec => exact ⟨m, acknowledge_withMask vec s m⟩
  | write r w => exact writeReg_withMask s m r w

/-- A store whose word may depend on the mask if MASK is what it writes: then only the mask differs. -/
theorem perform_storeAction_withMask {s : State} {addr w w' : Word}
    (hw : regAt s.config addr ≠ some (.pic .mask) → w' = w) (m : Word) :
    ∃ m', (storeAction s.config addr w').perform (s.withMask m) =
      ((storeAction s.config addr w).perform s).withMask m' := by
  by_cases hmask : regAt s.config addr = some (.pic .mask)
  · rw [storeAction, storeAction, hmask]
    exact ⟨w', rfl⟩
  · rw [hw hmask]
    exact perform_withMask _ s m

/-- A sub-word write merges its datum into a word read, which shows the mask only if it is MASK (R84, R85);
no other action depends on the mask. -/
theorem perform_actionOf_withMask (i : Instr) (s : State) (m : Word) :
    ∃ m', (actionOf (s.withMask m) i).perform (s.withMask m) = ((actionOf s i).perform s).withMask m' := by
  cases i with
  | write8 a b =>
    rw [actionOf_write8, actionOf_write8, State.withMask_config]
    exact perform_storeAction_withMask (fun h => congrArg (merge8 · a b) (regRead32_withMask h m)) m
  | write16 a x =>
    rw [actionOf_write16, actionOf_write16, State.withMask_config]
    exact perform_storeAction_withMask (fun h => congrArg (merge16 · a x) (regRead32_withMask h m)) m
  | _ => exact perform_withMask _ s m

/-- Settles O52: with another mask the responses agree, and the next states differ in the mask alone. -/
theorem theMaskHidesAndNothingElse : Obligations.TheMaskHidesAndNothingElse := by
  unfold Obligations.TheMaskHidesAndNothingElse
  intro i s m hpending hread hread8 hread16
  obtain ⟨m', hperform⟩ := perform_actionOf_withMask i s m
  refine ⟨_, m', exec_eq i s, ?_⟩
  change exec i (s.withMask m) = _
  rw [exec_eq, answerOf_withMask hpending hread hread8 hread16, hperform]
  rfl

end Sys2Proof.Machine

/-! IRQ_PENDING, SIGNAL, ACK_IRQ and EOI (R105 to R114). -/

namespace Sys2Proof.Machine

theorem exec_irqPending (s : State) : exec .irqPending s = .next (s.respond (irqResponse (resolve s.pic))) :=
  exec_eq .irqPending s

theorem irqResponse_some (v : VectorIx) : irqResponse (some v) = .irq true (BitVec.ofNat 5 v) :=
  congrArg (Response.irq true) (BitVec.eq_of_toNat_eq (by simp))

/-- Settles O15: the two clauses are the two answers of `Resolve`. -/
theorem irqPendingAnswersTheLowestVector : Obligations.IrqPendingAnswersTheLowestVector := by
  unfold Obligations.IrqPendingAnswersTheLowestVector
  intro s
  rw [exec_irqPending]
  refine ⟨fun v hpending hmask hlower => ?_, fun hnone => ?_⟩
  · rw [resolve_eq_some.mpr ⟨by rw [hpending, hmask]; decide, hlower⟩, irqResponse_some]
    rfl
  · rw [resolve_eq_none.mpr hnone]
    rfl

/-- SIGNAL of a vector in range (R105, R106). -/
theorem exec_signal (v : VectorIx) (s : State) :
    exec (.signal (BitVec.ofNat 32 v)) s = .next ((s.setPic { s.pic with
      pendingBits := setPending s.pic.pendingBits v
      lec := s.pic.lec.set v s.cycles }).respond .nothing) := by
  have hv := (vectorInRange_signedVector (BitVec.ofNat 32 v) v).mpr rfl
  rw [exec_eq, actionOf, Action.perform, signal, hv]
  rfl

/-- SIGNAL of no vector is dropped (R105). -/
theorem exec_signal_of_none {vec : Word} (hvec : vectorInRange (signedVector vec) = none) (s : State) :
    exec (.signal vec) s = .next (s.respond .nothing) := by
  rw [exec_eq, actionOf, Action.perform, signal, hvec]
  rfl

/-- Settles O14: the range test splits the operands. -/
theorem signalRaisesARequest : Obligations.SignalRaisesARequest := by
  unfold Obligations.SignalRaisesARequest
  exact fun s => ⟨fun v => exec_signal v s,
    fun vec hvec => exec_signal_of_none ((vectorInRange_eq_none vec.toInt).mpr hvec) s⟩

/-- ACK_IRQ of no vector is not accepted and does nothing (R109, R111). -/
theorem exec_ackIrq_of_none {vec : Word} (hvec : vectorInRange (signedVector vec) = none) (s : State) :
    exec (.ackIrq vec) s = .next (s.respond (.accepted false)) := by
  change execAckIrq vec s = _
  rw [execAckIrq, hvec]

/-- Without a firing cycle recorded an acknowledgment only drops the request (R109). -/
theorem acknowledgeVector_of_lec_eq_zero {s : State} {v : VectorIx} (hlec : s.pic.lec[v] = 0) :
    acknowledgeVector v s = s.setPic (dropRequest s.pic v) := if_pos hlec

/-- With a firing cycle recorded an acknowledgment folds its sample and consumes it (R109, R110). -/
theorem acknowledgeVector_of_lec_ne_zero {s : State} {v : VectorIx} (hlec : s.pic.lec[v] ≠ 0) :
    acknowledgeVector v s = (s.setMetrics (statsUpdate s.metrics v (latencyOf s v))).setPic
      (consumeFiringCycle (dropRequest s.pic v) v) := if_neg hlec

/-- Settles O16: the firing cycle decides between the two clauses in range, and the four numbers are the
intermediate results of `foldSample`. -/
theorem ackIrqFoldsOneSample : Obligations.AckIrqFoldsOneSample := by
  unfold Obligations.AckIrqFoldsOneSample
  intro s
  refine ⟨fun v hlec => ?_, fun v hlec => ⟨_, _, _, _, rfl, rfl, rfl, rfl, ?_⟩, fun vec hvec => ?_⟩
  · rw [exec_ackIrq, acknowledgeVector_of_lec_eq_zero hlec]
    rfl
  · rw [exec_ackIrq, acknowledgeVector_of_lec_ne_zero hlec]
    rfl
  · exact exec_ackIrq_of_none ((vectorInRange_eq_none vec.toInt).mpr hvec) s

/-- A low byte of 32 or more names no vector (R114). -/
theorem vectorInRange_lowByte_eq_none {w : Word} (hw : 32 ≤ (w &&& 0xFF#32).toNat) :
    vectorInRange (signedVector (w &&& 0xFF#32)) = none := by
  have hbyte : signedVector (w &&& 0xFF#32) = (w &&& 0xFF#32).toNat := by
    refine BitVec.toInt_eq_toNat_of_lt ?_
    rw [and_lowByte, BitVec.toNat_ofNat]
    omega
  rw [vectorInRange_eq_none, hbyte]
  omega

/-- Settles O18: a write is compared with the ACK_IRQ of its low byte, which does nothing out of range. -/
theorem eoiAcknowledgesTheLowByte : Obligations.EoiAcknowledgesTheLowByte := by
  unfold Obligations.EoiAcknowledgesTheLowByte
  intro s
  have hwrite (w : Word) : ∃ t, exec (.ackIrq (w &&& 0xFF#32)) s = .next t ∧
      exec (.write32PicEoi w) s = .next { t with response := .nothing } := by
    obtain ⟨t, hack, hwritten⟩ := written_eoi (and_lowByte w) s
    exact ⟨t, hack, (exec_write32 (.pic .eoi) w s).trans hwritten⟩
  refine ⟨exec_read32 (.pic .eoi) s, hwrite, fun w hw => ?_⟩
  obtain ⟨t, hack, heoi⟩ := hwrite w
  rw [exec_ackIrq_of_none (vectorInRange_lowByte_eq_none hw), Host.Outcome.next.injEq] at hack
  rw [heoi, ← hack]
  rfl

end Sys2Proof.Machine

/-! The latency of merged requests (R186, R194): a stopped timer's TICKs move the Clock alone, and the second
signal overwrites the first one's firing cycle. -/

namespace Sys2Proof.Machine

/-- TICKs of a disabled timer (R91). -/
theorem runOps_ticksMacro_of_disabled {s : State} (hdisabled : s.timer.enabled = false) (n : Nat) :
    ∃ r, runOps (ticksMacro n) s = .next ((s.setCycles (s.cycles + BitVec.ofNat 64 n)).respond r) := by
  induction n with
  | zero => exact ⟨s.response, by rw [BitVec.add_zero]; rfl⟩
  | succ n ih =>
    obtain ⟨r, hrun⟩ := ih
    have htick := tickBlock_of_idle
      (s := (s.setCycles (s.cycles + BitVec.ofNat 64 n)).respond r) (.inl hdisabled)
    refine ⟨.nothing, ?_⟩
    rw [runOps_ticksMacro_succ hrun, htick, ← add_ofNat_succ]
    rfl

theorem runOps_singleton {i : Instr} {s t : State} (h : exec i s = .next t) : runOps [i] s = .next t := by
  rw [runOps, h]
  rfl

/-- SIGNAL, then TICKs of a disabled timer: the firing cycle is that of the SIGNAL, whatever was recorded
before, and the statistics are as they were (R89, R105). -/
theorem runOps_signal_ticks {s : State} (hdisabled : s.timer.enabled = false) (v : VectorIx) (n : Nat) :
    ∃ t, runOps ([.signal (BitVec.ofNat 32 v)] ++ ticksMacro n) s = .next t ∧
      t.cycles = s.cycles + BitVec.ofNat 64 n ∧ t.timer = s.timer ∧ t.metrics = s.metrics ∧
      t.pic.lec[v] = s.cycles := by
  obtain ⟨r, hticks⟩ := runOps_ticksMacro_of_disabled
    (s := (s.setPic { s.pic with
      pendingBits := setPending s.pic.pendingBits v
      lec := s.pic.lec.set v s.cycles }).respond .nothing) hdisabled n
  refine ⟨_, (runOps_append (runOps_singleton (exec_signal v s)) _).trans hticks, rfl, rfl, rfl, ?_⟩
  exact Vector.getElem_set_self v.isLt

/-- An acknowledgment folds the latency of the firing cycle recorded (R109, R125). -/
theorem entry_acknowledgeVector_of_lec_ne_zero {s : State} {v : VectorIx} (hlec : s.pic.lec[v] ≠ 0) :
    entry (acknowledgeVector v s).metrics v =
      foldSample binary64Ops (entry s.metrics v) (s.cycles - s.pic.lec[v]) := by
  rw [acknowledgeVector_of_lec_ne_zero hlec, State.setPic_metrics, State.setMetrics_metrics, entry_statsUpdate,
    if_pos rfl, latencyOf]

theorem acknowledgeVector_isPending_self (v : VectorIx) (s : State) :
    isPending (acknowledgeVector v s).pic v = false := by
  rw [isPending, acknowledgeVector_pendingBits, clearPending_getLsbD _ _ _ v.isLt]
  simp

/-- Settles O20: the run is two rounds of SIGNAL and TICKs, and the acknowledgment finds the firing cycle of
the second. -/
theorem latencyIsFromTheLatestSignal : Obligations.LatencyIsFromTheLatestSignal := by
  unfold Obligations.LatencyIsFromTheLatestSignal
  intro s v j k hdisabled hcycle
  obtain ⟨t, hfirst, htcycles, httimer, htmetrics, -⟩ := runOps_signal_ticks hdisabled v j
  obtain ⟨u, hsecond, hucycles, -, humetrics, hulec⟩ :=
    runOps_signal_ticks (s := t) (httimer ▸ hdisabled) v k
  have hrecorded : u.pic.lec[v] ≠ 0 := by rwa [hulec, htcycles]
  have hlatency : u.cycles - u.pic.lec[v] = BitVec.ofNat 64 k := by
    rw [hulec, hucycles, BitVec.add_comm, BitVec.add_sub_cancel]
  have hrun := (runOps_append hfirst _).trans hsecond
  rw [← List.append_assoc] at hrun
  refine ⟨_, (runOps_append hrun _).trans (runOps_singleton (exec_ackIrq v u)), ?_,
    acknowledgeVector_isPending_self v u, acknowledgeVector_lec_self v u⟩
  rw [State.respond_metrics, entry_acknowledgeVector_of_lec_ne_zero hrecorded, hlatency, humetrics, htmetrics]

end Sys2Proof.Machine

/-! The statistics over the rationals and the query (R126, R128 to R130). -/

namespace Sys2Proof.Machine

/-! GET_IRQ_STATS (R129, R130). -/

/-- The binary64 variance of two or more samples (R130). -/
theorem variance_of_one_lt {m : Metrics} {v : VectorIx} (hcount : 1 < m.n[v].toNat) :
    variance m v = Binary64.div m.m2[v] (Binary64.ofU64 (m.n[v] - 1)) := if_pos hcount

/-- Fewer than two samples have variance 0 (R130). -/
theorem variance_of_le_one {m : Metrics} {v : VectorIx} (hcount : m.n[v].toNat ≤ 1) :
    variance m v = 0 := if_neg (Nat.not_lt.mpr hcount)

/-- GET_IRQ_STATS of a vector in range (R129). -/
theorem exec_getIrqStats (v : VectorIx) (s : State) :
    exec (.getIrqStats (BitVec.ofNat 32 v)) s =
      .next (s.respond (.stats s.metrics.n[v] s.metrics.mean[v] (variance s.metrics v))) := by
  have hv := (vectorInRange_signedVector (BitVec.ofNat 32 v) v).mpr rfl
  change execGetIrqStats _ s = _
  rw [execGetIrqStats, statsResponse, hv]

/-- GET_IRQ_STATS of no vector answers zeros (R129). -/
theorem exec_getIrqStats_of_none {vec : Word} (hvec : vectorInRange (signedVector vec) = none) (s : State) :
    exec (.getIrqStats vec) s = .next (s.respond (.stats 0 0 0)) := by
  change execGetIrqStats vec s = _
  rw [execGetIrqStats, statsResponse, hvec]
  rfl

/-- Settles O21: the range test splits the operands, and the count picks the case of the variance. -/
theorem getIrqStatsAnswersTheStatistics : Obligations.GetIrqStatsAnswersTheStatistics := by
  unfold Obligations.GetIrqStatsAnswersTheStatistics
  intro s
  refine ⟨fun v hcount => ?_, fun v hcount => ?_, fun vec hvec => ?_⟩
  · rw [exec_getIrqStats, variance_of_le_one hcount]
    rfl
  · rw [exec_getIrqStats, variance_of_one_lt hcount]
    rfl
  · exact exec_getIrqStats_of_none ((vectorInRange_eq_none vec.toInt).mpr hvec) s

/-! Welford's update over the rationals (R126). -/

theorem foldSamples_concat {α : Type} (ops : NumOps α) (xs : List DWord) (x : DWord) :
    foldSamples ops (xs ++ [x]) = foldSample ops (foldSamples ops xs) x :=
  List.foldl_concat ..

/-- The direct sum of the samples, as the mean holds it. -/
theorem length_mul_directMean (xs : List DWord) :
    xs.length * directMean xs = (xs.map fun x => (x.toNat : ℚ)).sum := by
  cases xs with
  | nil => simp
  | cons x xs => exact mul_div_cancel₀ _ (Nat.cast_ne_zero.mpr (Nat.succ_ne_zero _))

/-- Squared deviations from any centre `a`, by the sums of the samples and of their squares. -/
theorem sum_sq_deviation (a : ℚ) (xs : List DWord) :
    (xs.map fun x => ((x.toNat : ℚ) - a) ^ 2).sum =
      (xs.map fun x => (x.toNat : ℚ) ^ 2).sum - 2 * a * (xs.map fun x => (x.toNat : ℚ)).sum +
        xs.length * a ^ 2 := by
  induction xs with
  | nil => simp
  | cons x xs ih =>
    simp only [List.map_cons, List.sum_cons, List.length_cons, Nat.cast_succ, ih]
    ring

/-- The sum of squared deviations, by the squares and the mean. -/
theorem directM2_eq_sum_sq_sub (xs : List DWord) :
    directM2 xs = (xs.map fun x => (x.toNat : ℚ) ^ 2).sum - xs.length * directMean xs ^ 2 := by
  rw [directM2, sum_sq_deviation, ← length_mul_directMean]
  ring

/-- Step 4 of the update moves the direct mean to that of one more sample. -/
theorem directMean_concat (xs : List DWord) (x : DWord) :
    directMean (xs ++ [x]) =
      directMean xs + ((x.toNat : ℚ) - directMean xs) / (xs.length + 1 : ℕ) := by
  have hcount : ((xs.length + 1 : ℕ) : ℚ) ≠ 0 := Nat.cast_ne_zero.mpr (Nat.succ_ne_zero _)
  have hsum : ((xs.length + 1 : ℕ) : ℚ) * directMean (xs ++ [x]) = xs.length * directMean xs + x.toNat := by
    have h := length_mul_directMean (xs ++ [x])
    simpa [length_mul_directMean] using h
  field_simp
  rw [mul_comm, hsum]
  push_cast
  ring

/-- Step 6 of the update: one more sample adds the product of its deviations from the old and the new mean. -/
theorem directM2_concat (xs : List DWord) (x : DWord) :
    directM2 (xs ++ [x]) = directM2 xs +
      ((x.toNat : ℚ) - directMean xs) * ((x.toNat : ℚ) - directMean (xs ++ [x])) := by
  have hcount : ((xs.length : ℚ) + 1) ≠ 0 := Nat.cast_add_one_ne_zero _
  rw [directM2_eq_sum_sq_sub, directM2_eq_sum_sq_sub, directMean_concat]
  simp only [List.map_append, List.map_cons, List.map_nil, List.sum_append, List.sum_cons, List.sum_nil,
    List.length_append, List.length_cons, List.length_nil]
  push_cast
  field_simp
  ring

/-- The accumulators are the direct statistics of the samples folded (R126). -/
theorem foldSamples_rationalOps (xs : List DWord) (hlength : xs.length < 2 ^ 64) :
    foldSamples rationalOps xs =
      { n := BitVec.ofNat 64 xs.length, mean := directMean xs, m2 := directM2 xs } := by
  induction xs using List.reverseRecOn with
  | nil => simp [foldSamples, emptyAcc, rationalOps, directMean, directM2]
  | append_singleton xs x ih =>
    rw [List.length_append, List.length_singleton] at hlength
    have hn : BitVec.ofNat 64 xs.length + 1 = BitVec.ofNat 64 (xs.length + 1) :=
      (BitVec.ofNat_add ..).symm
    have hcount : (BitVec.ofNat 64 (xs.length + 1)).toNat = xs.length + 1 :=
      (BitVec.toNat_ofNat ..).trans (Nat.mod_eq_of_lt hlength)
    rw [foldSamples_concat, ih (by omega), directM2_concat, directMean_concat]
    simp only [foldSample, rationalOps, hn, hcount, List.length_append, List.length_singleton]

theorem foldSamples_rationalOps_n_toNat (xs : List DWord) (hlength : xs.length < 2 ^ 64) :
    (foldSamples rationalOps xs).n.toNat = xs.length := by
  rw [foldSamples_rationalOps xs hlength]
  exact (BitVec.toNat_ofNat ..).trans (Nat.mod_eq_of_lt hlength)

/-- Settles O22, by `foldSamples_rationalOps`, the induction on the samples from the last one. -/
theorem welfordIsExactOverTheRationals : Obligations.WelfordIsExactOverTheRationals := by
  unfold Obligations.WelfordIsExactOverTheRationals
  refine ⟨fun xs _ hlength => ⟨foldSamples_rationalOps_n_toNat xs hlength, ?_, ?_⟩, ?_⟩
  · rw [foldSamples_rationalOps xs hlength]
  · rw [foldSamples_rationalOps xs hlength]
  · decide +kernel

/-! The tolerance contract (R128). -/

/-- The variance over the rationals is the direct one (R130). -/
theorem sampleVariance_rationalOps (xs : List DWord) (hlength : xs.length < 2 ^ 64) :
    sampleVariance rationalOps (foldSamples rationalOps xs) = directVariance xs := by
  have hn := foldSamples_rationalOps_n_toNat xs hlength
  rw [sampleVariance, directVariance, hn]
  split
  next hcount =>
    have hpred : ((foldSamples rationalOps xs).n - 1).toNat = xs.length - 1 := by
      rw [BitVec.toNat_sub_of_le (by rw [BitVec.le_def, hn]; exact hcount.le), hn]
      rfl
    simp only [rationalOps] at hpred ⊢
    rw [hpred, Nat.cast_sub hcount.le, Nat.cast_one, ← rationalOps, foldSamples_rationalOps xs hlength]
  next => rfl

/-- An exact value is within every tolerance. -/
theorem withinTolerance_self {rtol : ℚ} (hrtol : 0 ≤ rtol) (q : ℚ) : withinTolerance rtol q q := by
  rw [withinTolerance, sub_self, abs_zero]
  exact mul_nonneg hrtol (abs_nonneg q)

theorem meetsTolerance_rationalOps {rtol : ℚ} (hrtol : 0 ≤ rtol) : MeetsTolerance rationalOps id rtol := by
  intro xs _ hlength
  have hmean : (foldSamples rationalOps xs).mean = directMean xs := by rw [foldSamples_rationalOps xs hlength]
  rw [id, id, hmean, sampleVariance_rationalOps xs hlength]
  exact ⟨withinTolerance_self hrtol _, withinTolerance_self hrtol _⟩

/-- Settles O23: over the rationals the direct statistics are returned, whatever the tolerance. -/
theorem exactInstanceMeetsTheTolerance : Obligations.ExactInstanceMeetsTheTolerance :=
  ⟨fun _ hrtol => meetsTolerance_rationalOps hrtol, meetsTolerance_rationalOps Config.statsRtol.2⟩

end Sys2Proof.Machine

/-! The layout of binary64 (R127, log 6): a number is a sign and a pattern of 63 bits, and the patterns in
their order are the magnitudes in theirs. -/

namespace Sys2Proof.Machine.Binary64

/-- The bits of a number, sign apart. -/
def pattern (x : Number) : Nat := x.toNat % 2 ^ 63

/-- The magnitude of a pattern in units of `2^-1074`. -/
def patternMag (p : Nat) : Nat :=
  (if p / 2 ^ 52 = 0 then p % 2 ^ 52 else 2 ^ 52 + p % 2 ^ 52) * 2 ^ (p / 2 ^ 52 - 1)

theorem expField_eq (x : Number) : expField x = pattern x / 2 ^ 52 := by
  rw [expField, pattern, BitVec.extractLsb'_toNat, Nat.shiftRight_eq_div_pow]
  omega

theorem fracField_eq (x : Number) : fracField x = pattern x % 2 ^ 52 := by
  rw [fracField, pattern, BitVec.extractLsb'_toNat, Nat.shiftRight_zero]
  omega

theorem mag_eq (x : Number) : mag x = patternMag (pattern x) := by
  rw [mag, patternMag, expField_eq, fracField_eq]

theorem neg_eq (x : Number) : neg x = decide (2 ^ 63 ≤ x.toNat) := by
  rw [neg, ← BitVec.msb_eq_getLsbD_last x, BitVec.msb_eq_decide]

theorem isFinite_iff (x : Number) : isFinite x = true ↔ pattern x < 2047 * 2 ^ 52 := by
  rw [isFinite, bne_iff_ne, expField_eq, pattern]
  omega

theorem isNaN_eq_false {x : Number} (hx : isFinite x = true) : isNaN x = false := by
  rw [isNaN, beq_eq_false_iff_ne.mpr (bne_iff_ne.mp hx), Bool.false_and]

theorem isInf_eq_false {x : Number} (hx : isFinite x = true) : isInf x = false := by
  rw [isInf, beq_eq_false_iff_ne.mpr (bne_iff_ne.mp hx), Bool.false_and]

/-! A number put together from its sign and its pattern. -/

theorem pack_toNat (sign : Bool) {p : Nat} (hp : p < 2 ^ 63) :
    (pack sign p).toNat = if sign then 2 ^ 63 + p else p := by
  rw [pack, BitVec.toNat_ofNat, Nat.mod_eq_of_lt]
  split <;> omega

theorem pattern_pack (sign : Bool) {p : Nat} (hp : p < 2 ^ 63) : pattern (pack sign p) = p := by
  rw [pattern, pack_toNat sign hp]
  split <;> omega

theorem neg_pack (sign : Bool) {p : Nat} (hp : p < 2 ^ 63) : neg (pack sign p) = sign := by
  rw [neg_eq, pack_toNat sign hp]
  cases sign
  · exact decide_eq_false (Nat.not_le.mpr hp)
  · exact decide_eq_true (Nat.le_add_right ..)

theorem pack_neg_pattern (x : Number) : pack (neg x) (pattern x) = x := by
  have hx := x.isLt
  have hp : pattern x < 2 ^ 63 := Nat.mod_lt _ (by decide)
  refine BitVec.eq_of_toNat_eq ?_
  rw [pack_toNat _ hp, neg_eq, pattern]
  simp only [decide_eq_true_eq]
  split <;> omega

theorem pack_getLsbD_zero (sign : Bool) {p : Nat} (hp : p < 2 ^ 63) :
    (pack sign p).getLsbD 0 = decide (p % 2 = 1) := by
  rw [BitVec.getLsbD, Nat.testBit_zero, pack_toNat sign hp]
  cases sign
  · rfl
  · exact decide_eq_decide.mpr (by simp only [if_true]; omega)

/-! The order of the patterns. -/

/-- A significand of at most 53 bits, normal unless the scale is 0, placed at its scale; `2^53` is the
carry into the next exponent. -/
theorem patternMag_significand {e m : Nat} (hm : m ≤ 2 ^ 53) (hnormal : e = 0 ∨ 2 ^ 52 ≤ m) :
    patternMag (e * 2 ^ 52 + m) = m * 2 ^ e := by
  rcases Nat.lt_or_ge m (2 ^ 52) with hsubnormal | hm52
  · obtain rfl : e = 0 := by omega
    have hfield : (0 * 2 ^ 52 + m) / 2 ^ 52 = 0 := by omega
    have hfrac : (0 * 2 ^ 52 + m) % 2 ^ 52 = m := by omega
    rw [patternMag, hfield, hfrac, if_pos rfl]
  · rcases Nat.lt_or_ge m (2 ^ 53) with hm53 | hcarry
    · have hfield : (e * 2 ^ 52 + m) / 2 ^ 52 = e + 1 := by omega
      have hfrac : 2 ^ 52 + (e * 2 ^ 52 + m) % 2 ^ 52 = m := by omega
      rw [patternMag, hfield, hfrac, if_neg (Nat.succ_ne_zero e), Nat.add_sub_cancel]
    · obtain rfl : m = 2 ^ 53 := by omega
      have hfield : (e * 2 ^ 52 + 2 ^ 53) / 2 ^ 52 = e + 2 := by omega
      have hfrac : 2 ^ 52 + (e * 2 ^ 52 + 2 ^ 53) % 2 ^ 52 = 2 ^ 52 := by omega
      rw [patternMag, hfield, hfrac, if_neg (Nat.succ_ne_zero _), Nat.add_sub_assoc (by decide), pow_succ' 2 52,
        pow_add 2 e]
      ring

/-- Every pattern is a significand of 53 bits at a scale. -/
theorem exists_significand (p : Nat) :
    ∃ e m, p = e * 2 ^ 52 + m ∧ m < 2 ^ 53 ∧ (e = 0 ∨ 2 ^ 52 ≤ m) :=
  ⟨p / 2 ^ 52 - 1, p - (p / 2 ^ 52 - 1) * 2 ^ 52, by omega, by omega, by omega⟩

theorem patternMag_strictMono : StrictMono patternMag := by
  refine strictMono_nat_of_lt_succ fun p => ?_
  obtain ⟨e, m, rfl, hm, hnormal⟩ := exists_significand p
  rw [Nat.add_assoc, patternMag_significand hm.le hnormal, patternMag_significand hm (by omega)]
  exact Nat.mul_lt_mul_of_pos_right (Nat.lt_succ_self m) (Nat.two_pow_pos e)

theorem patternMag_zero : patternMag 0 = 0 := rfl

theorem patternMag_one : patternMag 1 = 1 := rfl

/-! The signed value. -/

/-- A magnitude with a sign. -/
def signed (sign : Bool) (a : ℚ) : ℚ := if sign then -a else a

theorem toRat_eq (x : Number) : toRat x = signed (neg x) (patternMag (pattern x) / 2 ^ 1074) := by
  rw [toRat, units, signed, mag_eq]
  cases neg x
  · rfl
  · simp only [if_true, Int.cast_neg, Int.cast_natCast, neg_div]

theorem toRat_pack (sign : Bool) {p : Nat} (hp : p < 2 ^ 63) :
    toRat (pack sign p) = signed sign (patternMag p / 2 ^ 1074) := by
  rw [toRat_eq, neg_pack sign hp, pattern_pack sign hp]

/-- Two magnitudes of the same sign are as far apart as without it. -/
theorem abs_signed_sub_signed (sign : Bool) (a b : ℚ) : |signed sign a - signed sign b| = |a - b| := by
  cases sign
  · rfl
  · rw [signed, signed, if_pos rfl, if_pos rfl, neg_sub_neg, abs_sub_comm]

/-- Two magnitudes of opposite signs are their sum apart. -/
theorem abs_signed_not_sub_signed (sign : Bool) {a b : ℚ} (ha : 0 ≤ a) (hb : 0 ≤ b) :
    |signed (!sign) a - signed sign b| = a + b := by
  have hsum := abs_of_nonneg (add_nonneg ha hb)
  cases sign
  · exact (abs_sub_comm ..).trans ((congrArg abs (by simp [signed, add_comm])).trans hsum)
  · exact (congrArg abs (by simp [signed])).trans hsum

theorem signed_mul_signed (s t : Bool) (a b : ℚ) : signed s a * signed t b = signed (s != t) (a * b) := by
  cases s <;> cases t <;> simp [signed]

theorem signed_div_signed (s t : Bool) (a b : ℚ) : signed s a / signed t b = signed (s != t) (a / b) := by
  cases s <;> cases t <;> simp [signed, neg_div, div_neg]

/-! Rounding to nearest, ties to even, on patterns. -/

/-- Pattern `p` is a nearest one to `q` units, and the even one when another is as near. -/
def IsNearestPattern (q : ℚ) (p : Nat) : Prop :=
  ∀ c : Nat, |(patternMag p : ℚ) - q| ≤ |(patternMag c : ℚ) - q| ∧
    (|(patternMag p : ℚ) - q| = |(patternMag c : ℚ) - q| → c ≠ p → p % 2 = 0)

theorem patternMag_cast_lt {p c : Nat} (h : p < c) : (patternMag p : ℚ) < patternMag c :=
  Nat.cast_lt.mpr (patternMag_strictMono h)

theorem patternMag_cast_le {p c : Nat} (h : p ≤ c) : (patternMag p : ℚ) ≤ patternMag c :=
  Nat.cast_le.mpr (patternMag_strictMono.monotone h)

/-- Below the midpoint of two successive patterns the lower is nearest; at it, when it is even. -/
theorem isNearestPattern_lower {p : Nat} {q : ℚ} (hlo : (patternMag p : ℚ) ≤ q)
    (hmid : 2 * q < patternMag p + patternMag (p + 1) ∨
      2 * q = patternMag p + patternMag (p + 1) ∧ p % 2 = 0) : IsNearestPattern q p := by
  intro c
  have hdist : |(patternMag p : ℚ) - q| = q - patternMag p := by
    rw [abs_sub_comm, abs_of_nonneg (sub_nonneg.mpr hlo)]
  rw [hdist]
  rcases lt_trichotomy c p with hc | rfl | hc
  · have hmag := patternMag_cast_lt hc
    have hbelow : q - patternMag c ≤ |(patternMag c : ℚ) - q| := abs_sub_comm q _ ▸ le_abs_self _
    exact ⟨by linarith, fun heq => by linarith⟩
  · exact ⟨hdist.ge, fun _ h => absurd rfl h⟩
  · have hmag := patternMag_cast_le (Nat.succ_le_of_lt hc)
    have habove : patternMag c - q ≤ |(patternMag c : ℚ) - q| := le_abs_self _
    rcases hmid with hmid | ⟨hmid, heven⟩
    · exact ⟨by linarith, fun heq => by linarith⟩
    · exact ⟨by linarith, fun _ _ => heven⟩

/-- Above the midpoint of two successive patterns the upper is nearest; at it, when it is even. -/
theorem isNearestPattern_upper {p : Nat} {q : ℚ} (hhi : q ≤ (patternMag (p + 1) : ℚ))
    (hmid : (patternMag p + patternMag (p + 1) : ℚ) < 2 * q ∨
      2 * q = patternMag p + patternMag (p + 1) ∧ (p + 1) % 2 = 0) : IsNearestPattern q (p + 1) := by
  intro c
  have hdist : |(patternMag (p + 1) : ℚ) - q| = patternMag (p + 1) - q := abs_of_nonneg (sub_nonneg.mpr hhi)
  rw [hdist]
  rcases lt_trichotomy c (p + 1) with hc | rfl | hc
  · have hmag := patternMag_cast_le (Nat.le_of_lt_succ hc)
    have hbelow : q - patternMag c ≤ |(patternMag c : ℚ) - q| := abs_sub_comm q _ ▸ le_abs_self _
    rcases hmid with hmid | ⟨hmid, heven⟩
    · exact ⟨by linarith, fun heq => by linarith⟩
    · exact ⟨by linarith, fun _ _ => heven⟩
  · exact ⟨hdist.ge, fun _ h => absurd rfl h⟩
  · have hmag := patternMag_cast_lt hc
    have habove : patternMag c - q ≤ |(patternMag c : ℚ) - q| := le_abs_self _
    exact ⟨by linarith, fun heq => by linarith⟩

/-- A nearest pattern to at most a pattern's magnitude is no later pattern. -/
theorem IsNearestPattern.le {q : ℚ} {p c : Nat} (h : IsNearestPattern q p) (hq : q ≤ patternMag c) : p ≤ c := by
  by_contra! hlt
  have hmag := patternMag_cast_lt hlt
  have hdist := (h c).1
  rw [abs_of_nonneg (by linarith), abs_of_nonneg (by linarith)] at hdist
  linarith

/-- A nearest pattern to at least a pattern's magnitude is no earlier pattern. -/
theorem IsNearestPattern.ge {q : ℚ} {p c : Nat} (h : IsNearestPattern q p) (hq : patternMag c ≤ q) : c ≤ p := by
  by_contra! hlt
  have hmag := patternMag_cast_lt hlt
  have hdist := (h c).1
  rw [abs_of_nonpos (by linarith), abs_of_nonpos (by linarith)] at hdist
  linarith

/-! What `roundMag` computes. -/

/-- `roundMag` without the infinity. -/
def roundPattern (num den : Nat) : Nat :=
  let e := scale (num / den)
  let d := den * 2 ^ e
  let m := num / d
  let r := num % d
  e * 2 ^ 52 + (m + if 2 * r > d ∨ (2 * r = d ∧ m % 2 = 1) then 1 else 0)

theorem roundMag_eq (num den : Nat) : roundMag num den = min (roundPattern num den) (2047 * 2 ^ 52) := rfl

/-- The scale leaves 53 significant bits, or all of them when there are no more. -/
theorem scale_spec (q : Nat) : q / 2 ^ scale q < 2 ^ 53 ∧ (scale q = 0 ∨ 2 ^ 52 ≤ q / 2 ^ scale q) := by
  rcases Nat.lt_or_ge q (2 ^ 53) with hq | hq
  · have hscale : scale q = 0 := by
      rcases Nat.eq_zero_or_pos q with rfl | hpos
      · rfl
      · have := (Nat.log2_lt hpos.ne').mpr hq
        rw [scale]
        omega
    rw [hscale, pow_zero, Nat.div_one]
    exact ⟨hq, .inl rfl⟩
  · have hne : q ≠ 0 := by omega
    have hlog := (Nat.le_log2 hne).mpr hq
    have hscale : q.log2 = scale q + 52 := by rw [scale]; omega
    have hlower := Nat.log2_self_le hne
    have hupper := Nat.lt_log2_self (n := q)
    rw [hscale, Nat.add_comm, pow_add] at hlower
    rw [hscale, Nat.add_assoc, Nat.add_comm, pow_add] at hupper
    exact ⟨(Nat.div_lt_iff_lt_mul (Nat.two_pow_pos _)).mpr hupper,
      .inr ((Nat.le_div_iff_mul_le (Nat.two_pow_pos _)).mpr hlower)⟩

/-- A significand and a remainder below its last place: rounding up past the half, and at the half to even. -/
theorem isNearestPattern_significand {e m : Nat} (hm : m < 2 ^ 53) (hnormal : e = 0 ∨ 2 ^ 52 ≤ m) {rest : ℚ}
    (hrest : 0 ≤ rest) (hplace : rest < 2 ^ e) :
    IsNearestPattern (m * 2 ^ e + rest)
      (e * 2 ^ 52 + (m + if 2 * rest > 2 ^ e ∨ (2 * rest = 2 ^ e ∧ m % 2 = 1) then 1 else 0)) := by
  have hlower : (patternMag (e * 2 ^ 52 + m) : ℚ) = m * 2 ^ e := by
    rw [patternMag_significand hm.le hnormal]
    push_cast
    rfl
  have hupper : (patternMag (e * 2 ^ 52 + m + 1) : ℚ) = m * 2 ^ e + 2 ^ e := by
    rw [Nat.add_assoc, patternMag_significand hm (by omega)]
    push_cast
    ring
  split
  next hup =>
    rw [← Nat.add_assoc]
    refine isNearestPattern_upper (by linarith) ?_
    rw [hlower, hupper]
    rcases hup with hgt | ⟨htie, hodd⟩
    · exact .inl (by linarith)
    · exact .inr ⟨by linarith, by omega⟩
  next hdown =>
    obtain ⟨hle, htie_even⟩ := not_or.mp hdown
    rw [Nat.add_zero]
    refine isNearestPattern_lower (by linarith) ?_
    rw [hlower, hupper]
    rcases lt_or_eq_of_le (not_lt.mp hle) with hlt | htie
    · exact .inl (by linarith)
    · exact .inr ⟨by linarith, by have := not_and.mp htie_even htie; omega⟩

/-- The pattern `roundMag` computes is nearest to the quotient, ties to even. -/
theorem roundPattern_isNearest (num : Nat) {den : Nat} (hden : 0 < den) :
    IsNearestPattern (num / den) (roundPattern num den) := by
  obtain ⟨hm, hnormal⟩ := scale_spec (num / den)
  rw [Nat.div_div_eq_div_mul] at hm hnormal
  rw [roundPattern]
  generalize scale (num / den) = e at hm hnormal
  have hdiv := Nat.div_add_mod num (den * 2 ^ e)
  have hrem := Nat.mod_lt num (Nat.mul_pos hden (Nat.two_pow_pos e))
  generalize num / (den * 2 ^ e) = m at hm hnormal hdiv
  generalize num % (den * 2 ^ e) = r at hdiv hrem
  have hdenQ : (0 : ℚ) < den := Nat.cast_pos.mpr hden
  have hquotient : (num / den : ℚ) = m * 2 ^ e + r / den := by
    rw [← hdiv]
    push_cast
    field_simp
  have hplace : (r / den : ℚ) < 2 ^ e := by
    rw [div_lt_iff₀' hdenQ]
    exact_mod_cast hrem
  have hgt : 2 * (r / den : ℚ) > 2 ^ e ↔ 2 * r > den * 2 ^ e := by
    rw [← mul_div_assoc, gt_iff_lt, lt_div_iff₀' hdenQ]
    exact_mod_cast Iff.rfl
  have htie : 2 * (r / den : ℚ) = 2 ^ e ↔ 2 * r = den * 2 ^ e := by
    rw [← mul_div_assoc, div_eq_iff hdenQ.ne', mul_comm _ (den : ℚ)]
    exact_mod_cast Iff.rfl
  have hnearest := isNearestPattern_significand hm hnormal (by positivity) hplace
  simp only [hgt, htie] at hnearest
  rwa [hquotient]

end Sys2Proof.Machine.Binary64

/-! The operations of binary64 round to nearest, ties to even (R127). -/

namespace Sys2Proof.Machine.Binary64

theorem isFinite_pack (sign : Bool) {p : Nat} (hp : p < 2 ^ 63) :
    isFinite (pack sign p) = true ↔ p < 2047 * 2 ^ 52 := by
  rw [isFinite_iff, pattern_pack sign hp]

/-- Packing a nearest pattern gives a nearest number of that sign. -/
theorem isNearestEven_pack (sign : Bool) {q : ℚ} (hq : 0 ≤ q) {p : Nat} (hp : p < 2 ^ 63)
    (hnearest : IsNearestPattern q p) : IsNearestEven (pack sign p) (signed sign (q / 2 ^ 1074)) := by
  intro c _
  have hunit : (0 : ℚ) < 2 ^ 1074 := by positivity
  have hscaled (n : Nat) : |(n : ℚ) / 2 ^ 1074 - q / 2 ^ 1074| = |(n : ℚ) - q| / 2 ^ 1074 := by
    rw [← sub_div, abs_div, abs_of_pos hunit]
  rw [toRat_pack sign hp, toRat_eq c, pack_getLsbD_zero sign hp, abs_signed_sub_signed, hscaled,
    decide_eq_false_iff_not]
  have hbit (heven : p % 2 = 0) : ¬ p % 2 = 1 := by omega
  rcases Bool.eq_or_eq_not (neg c) sign with hsign | hsign
  · obtain ⟨hle, htie⟩ := hnearest (pattern c)
    rw [hsign, abs_signed_sub_signed, hscaled, div_le_div_iff_of_pos_right hunit, div_left_inj' hunit.ne']
    exact ⟨hle, fun heq hne => hbit (htie heq fun h => hne (by rw [h]))⟩
  · -- Of the other sign no number is nearer than 0 is, and 0 is even.
    obtain ⟨hle, htie⟩ := hnearest 0
    rw [patternMag_zero, Nat.cast_zero, zero_sub, abs_neg, abs_of_nonneg hq] at hle htie
    have hmag : (0 : ℚ) ≤ patternMag (pattern c) := Nat.cast_nonneg _
    rw [hsign, abs_signed_not_sub_signed sign (div_nonneg hmag hunit.le) (div_nonneg hq hunit.le), ← add_div,
      div_le_div_iff_of_pos_right hunit, div_left_inj' hunit.ne']
    refine ⟨by linarith, fun heq _ => ?_⟩
    rcases Nat.eq_zero_or_pos p with hzero | hpos
    · omega
    · exact hbit (htie (by linarith) hpos.ne)

theorem roundMag_lt (num den : Nat) : roundMag num den < 2 ^ 63 :=
  Nat.lt_of_le_of_lt (Nat.min_le_right ..) (by decide)

theorem roundMag_of_lt {num den : Nat} (h : roundPattern num den < 2047 * 2 ^ 52) :
    roundMag num den = roundPattern num den := min_eq_left h.le

/-- A finite rounded magnitude is nearest to the quotient it was rounded from. -/
theorem isNearestEven_pack_roundMag {sign : Bool} {num den : Nat} (hden : 0 < den)
    (hfinite : isFinite (pack sign (roundMag num den)) = true) :
    IsNearestEven (pack sign (roundMag num den)) (signed sign (num / den / 2 ^ 1074)) := by
  rw [isFinite_pack sign (roundMag_lt num den), roundMag_eq, min_lt_iff] at hfinite
  have hround := roundMag_of_lt (hfinite.resolve_right (lt_irrefl _))
  refine isNearestEven_pack sign (by positivity) (roundMag_lt num den) ?_
  rw [hround]
  exact roundPattern_isNearest num hden

theorem roundMag_zero (den : Nat) : roundMag 0 den = 0 := by
  simp [roundMag, scale]

/-! The operations on finite numbers. -/

theorem add_of_isFinite {a b : Number} (ha : isFinite a = true) (hb : isFinite b = true) :
    add a b = if units a + units b = 0 then pack (neg a && neg b) 0
      else pack (decide (units a + units b < 0)) (roundMag (units a + units b).natAbs 1) := by
  rw [add, isNaN_eq_false ha, isNaN_eq_false hb, isInf_eq_false ha, isInf_eq_false hb]
  rfl

theorem mul_of_isFinite {a b : Number} (ha : isFinite a = true) (hb : isFinite b = true) :
    mul a b = pack (neg a != neg b) (roundMag (mag a * mag b) (2 ^ 1074)) := by
  rw [mul, isNaN_eq_false ha, isNaN_eq_false hb, isInf_eq_false ha, isInf_eq_false hb]
  rfl

theorem div_of_isFinite {a b : Number} (ha : isFinite a = true) (hb : isFinite b = true) (hmag : mag b ≠ 0) :
    div a b = pack (neg a != neg b) (roundMag (mag a * 2 ^ 1074) (mag b)) := by
  rw [div, isNaN_eq_false ha, isNaN_eq_false hb, isInf_eq_false ha, isInf_eq_false hb, if_neg hmag]
  rfl

theorem sub_of_isFinite {a b : Number} (ha : isFinite a = true) (hb : isFinite b = true) :
    sub a b = add a (negate b) := by
  rw [sub, isNaN_eq_false ha, isNaN_eq_false hb]
  rfl

theorem neg_negate (x : Number) : neg (negate x) = !neg x := by
  rw [neg, negate, BitVec.getLsbD_xor]
  exact Bool.xor_true _

theorem pattern_negate (x : Number) : pattern (negate x) = pattern x := by
  rw [pattern, negate, BitVec.toNat_xor, Nat.xor_mod_two_pow]
  exact Nat.xor_zero _

theorem isFinite_negate (x : Number) : isFinite (negate x) = isFinite x := by
  rw [Bool.eq_iff_iff, isFinite_iff, isFinite_iff, pattern_negate]

theorem mag_negate (x : Number) : mag (negate x) = mag x := by rw [mag_eq, mag_eq, pattern_negate]

theorem units_negate (x : Number) : units (negate x) = -units x := by
  rw [units, units, neg_negate, mag_negate]
  cases neg x <;> simp

theorem toRat_negate (x : Number) : toRat (negate x) = -toRat x := by
  rw [toRat, toRat, units_negate, Int.cast_neg, neg_div]

theorem toRat_eq_signed_mag (x : Number) : toRat x = signed (neg x) (mag x / 2 ^ 1074) := by
  rw [toRat_eq, mag_eq]

theorem toRat_of_mag_eq_zero {x : Number} (hmag : mag x = 0) : toRat x = 0 := by
  rw [toRat_eq_signed_mag, hmag, Nat.cast_zero, zero_div, signed, neg_zero, ite_self]

/-- The sum is a sign and the rounded magnitude of the exact sum, the sum 0 included. -/
theorem exists_add_eq_pack {a b : Number} (ha : isFinite a = true) (hb : isFinite b = true) :
    ∃ sign num, add a b = pack sign (roundMag num 1) ∧
      toRat a + toRat b = signed sign (num / (1 : ℕ) / 2 ^ 1074) := by
  have hsum : toRat a + toRat b = ((units a + units b : ℤ) : ℚ) / 2 ^ 1074 := by
    rw [toRat, toRat, ← add_div, Int.cast_add]
  rw [add_of_isFinite ha hb, hsum, Nat.cast_one]
  generalize units a + units b = total
  split
  next hzero =>
    refine ⟨neg a && neg b, 0, by rw [roundMag_zero], ?_⟩
    rw [hzero, Int.cast_zero, Nat.cast_zero, div_one, zero_div, signed, neg_zero, ite_self]
  next =>
    refine ⟨_, _, rfl, ?_⟩
    rw [Nat.cast_natAbs, div_one, signed]
    split
    next hneg => rw [abs_of_neg (of_decide_eq_true hneg), Int.cast_neg, neg_div, neg_neg]
    next hpos => rw [abs_of_nonneg (by simpa using hpos)]

theorem add_isNearestEven {a b : Number} (ha : isFinite a = true) (hb : isFinite b = true)
    (hfinite : isFinite (add a b) = true) : IsNearestEven (add a b) (toRat a + toRat b) := by
  obtain ⟨sign, num, hadd, hsum⟩ := exists_add_eq_pack ha hb
  rw [hadd] at hfinite ⊢
  rw [hsum]
  exact isNearestEven_pack_roundMag Nat.one_pos hfinite

theorem sub_isNearestEven {a b : Number} (ha : isFinite a = true) (hb : isFinite b = true)
    (hfinite : isFinite (sub a b) = true) : IsNearestEven (sub a b) (toRat a - toRat b) := by
  rw [sub_of_isFinite ha hb] at hfinite ⊢
  rw [sub_eq_add_neg, ← toRat_negate]
  exact add_isNearestEven ha ((isFinite_negate b).trans hb) hfinite

theorem mul_isNearestEven {a b : Number} (ha : isFinite a = true) (hb : isFinite b = true)
    (hfinite : isFinite (mul a b) = true) : IsNearestEven (mul a b) (toRat a * toRat b) := by
  have hproduct : toRat a * toRat b =
      signed (neg a != neg b) ((mag a * mag b : ℕ) / (2 ^ 1074 : ℕ) / 2 ^ 1074) := by
    rw [toRat_eq_signed_mag a, toRat_eq_signed_mag b, signed_mul_signed, div_mul_div_comm, div_div,
      Nat.cast_mul, Nat.cast_pow, Nat.cast_ofNat]
  rw [mul_of_isFinite ha hb] at hfinite ⊢
  rw [hproduct]
  exact isNearestEven_pack_roundMag (pow_pos Nat.two_pos _) hfinite

theorem div_isNearestEven {a b : Number} (ha : isFinite a = true) (hb : isFinite b = true)
    (hdivisor : toRat b ≠ 0) (hfinite : isFinite (div a b) = true) :
    IsNearestEven (div a b) (toRat a / toRat b) := by
  have hmag : mag b ≠ 0 := fun h => hdivisor (toRat_of_mag_eq_zero h)
  have hunit : (2 ^ 1074 : ℚ) ≠ 0 := by positivity
  have hquotient : toRat a / toRat b =
      signed (neg a != neg b) ((mag a * 2 ^ 1074 : ℕ) / (mag b : ℕ) / 2 ^ 1074) := by
    rw [toRat_eq_signed_mag a, toRat_eq_signed_mag b, signed_div_signed, div_div_div_cancel_right₀ hunit,
      Nat.cast_mul, Nat.cast_pow, Nat.cast_ofNat, div_right_comm, mul_div_cancel_right₀ _ hunit]
  rw [div_of_isFinite ha hb hmag] at hfinite ⊢
  rw [hquotient]
  exact isNearestEven_pack_roundMag (Nat.pos_of_ne_zero hmag) hfinite

/-! The conversion of an integer. -/

/-- The pattern of `2^64`, far below the infinity. -/
theorem roundPattern_ofU64_le (k : DWord) : roundPattern (k.toNat * 2 ^ 1074) 1 ≤ 1086 * 2 ^ 52 + 2 ^ 52 := by
  refine (roundPattern_isNearest _ Nat.one_pos).le ?_
  rw [patternMag_significand (by decide) (.inr le_rfl), Nat.cast_one, div_one, Nat.cast_le, ← pow_add,
    show 52 + 1086 = 64 + 1074 from rfl, pow_add]
  exact Nat.mul_le_mul_right _ k.isLt.le

theorem roundMag_ofU64 (k : DWord) :
    roundMag (k.toNat * 2 ^ 1074) 1 = roundPattern (k.toNat * 2 ^ 1074) 1 :=
  roundMag_of_lt ((roundPattern_ofU64_le k).trans_lt (by decide))

theorem isFinite_ofU64 (k : DWord) : isFinite (ofU64 k) = true := by
  rw [ofU64, isFinite_pack false (roundMag_lt ..), roundMag_ofU64]
  exact (roundPattern_ofU64_le k).trans_lt (by decide)

theorem ofU64_isNearestEven (k : DWord) : IsNearestEven (ofU64 k) (k.toNat : ℚ) := by
  have hvalue : (k.toNat : ℚ) = signed false ((k.toNat * 2 ^ 1074 : ℕ) / (1 : ℕ) / 2 ^ 1074) := by
    rw [signed, if_neg Bool.false_ne_true, Nat.cast_mul, Nat.cast_pow, Nat.cast_ofNat, Nat.cast_one, div_one,
      mul_div_cancel_right₀ _ (by positivity)]
  rw [hvalue]
  exact isNearestEven_pack_roundMag Nat.one_pos (isFinite_ofU64 k)

/-- Settles O25: each operation packs a magnitude rounded from the exact one. -/
theorem operationsRoundToNearestEven : Obligations.OperationsRoundToNearestEven := by
  unfold Obligations.OperationsRoundToNearestEven
  exact ⟨fun a b ha hb => ⟨add_isNearestEven ha hb, sub_isNearestEven ha hb, mul_isNearestEven ha hb,
    div_isNearestEven ha hb⟩, fun k => ⟨isFinite_ofU64 k, ofU64_isNearestEven k⟩⟩

end Sys2Proof.Machine.Binary64

/-! Equal samples in binary64 (R132): numbers are rounded to themselves, so no step of the update is inexact. -/

namespace Sys2Proof.Machine.Binary64

/-- A finite magnitude is rounded to itself. -/
theorem roundMag_patternMag_mul {p den : Nat} (hp : p < 2047 * 2 ^ 52) (hden : 0 < den) :
    roundMag (patternMag p * den) den = p := by
  have hquotient : ((patternMag p * den : ℕ) / den : ℚ) = patternMag p := by
    rw [Nat.cast_mul, mul_div_cancel_right₀ _ (Nat.cast_ne_zero.mpr hden.ne')]
  have hnearest := roundPattern_isNearest (patternMag p * den) hden
  rw [hquotient] at hnearest
  have hround := (hnearest.le le_rfl).antisymm (hnearest.ge le_rfl)
  rw [roundMag_of_lt (hround.symm ▸ hp), hround]

theorem roundMag_mag_mul {x : Number} (hx : isFinite x = true) {den : Nat} (hden : 0 < den) :
    roundMag (mag x * den) den = pattern x := by
  rw [mag_eq, roundMag_patternMag_mul ((isFinite_iff x).mp hx) hden]

theorem natAbs_units (x : Number) : (units x).natAbs = mag x := by
  rw [units]
  split <;> simp

/-- A number is the sum of itself and of a zero; the sum 0 has the sign that `add` gives it. -/
theorem pack_units {x : Number} (hx : isFinite x = true) :
    (if units x = 0 then pack (neg x) 0
      else pack (decide (units x < 0)) (roundMag (units x).natAbs 1)) = x := by
  have hround : roundMag (units x).natAbs 1 = pattern x := by
    rw [natAbs_units, ← roundMag_mag_mul hx Nat.one_pos, mul_one]
  have hself := pack_neg_pattern x
  split
  next hzero =>
    rw [hzero, Int.natAbs_zero, roundMag_zero] at hround
    rwa [hround]
  next hne =>
    have hsign : decide (units x < 0) = neg x := by
      rw [units] at hne ⊢
      generalize neg x = sign at hne ⊢
      cases sign
      · exact decide_eq_false (Int.not_lt.mpr (Int.natCast_nonneg _))
      · rw [if_pos rfl] at hne ⊢
        exact decide_eq_true (by omega)
    rwa [hround, hsign]

theorem isFinite_zero : isFinite zero = true := rfl
theorem zero_neg : neg zero = false := rfl
theorem units_zero : units zero = 0 := by decide +kernel
theorem mag_zero : mag zero = 0 := by decide +kernel

theorem sub_zero_eq {x : Number} (hx : isFinite x = true) : sub x zero = x := by
  rw [sub_of_isFinite hx isFinite_zero, add_of_isFinite hx ((isFinite_negate zero).trans isFinite_zero),
    units_negate, units_zero, neg_negate, zero_neg, Int.neg_zero, Int.add_zero, Bool.not_false, Bool.and_true]
  exact pack_units hx

theorem sub_self_eq {x : Number} (hx : isFinite x = true) : sub x x = zero := by
  rw [sub_of_isFinite hx hx, add_of_isFinite hx ((isFinite_negate x).trans hx), units_negate,
    Int.add_right_neg, if_pos rfl, neg_negate, Bool.and_not_self]
  rfl

/-- Positive zero is neutral on the right for the numbers that are not negative. -/
theorem add_zero_eq {x : Number} (hx : isFinite x = true) (hneg : neg x = false) : add x zero = x := by
  have hpack := pack_units hx
  rw [hneg] at hpack
  rwa [add_of_isFinite hx isFinite_zero, units_zero, Int.add_zero, hneg, Bool.false_and]

theorem zero_add_eq {x : Number} (hx : isFinite x = true) (hneg : neg x = false) : add zero x = x := by
  have hpack := pack_units hx
  rw [hneg] at hpack
  rwa [add_of_isFinite isFinite_zero hx, units_zero, Int.zero_add, hneg, Bool.and_false]

theorem mul_zero_eq {x : Number} (hx : isFinite x = true) (hneg : neg x = false) : mul x zero = zero := by
  rw [mul_of_isFinite hx isFinite_zero, mag_zero, Nat.mul_zero, roundMag_zero, hneg]
  rfl

theorem zero_div_eq {x : Number} (hx : isFinite x = true) (hneg : neg x = false) (hmag : mag x ≠ 0) :
    div zero x = zero := by
  rw [div_of_isFinite isFinite_zero hx hmag, mag_zero, Nat.zero_mul, roundMag_zero, hneg]
  rfl

/-! Converted integers. -/

theorem neg_ofU64 (k : DWord) : neg (ofU64 k) = false := neg_pack false (roundMag_lt ..)

theorem mag_ofU64_ne_zero {k : DWord} (hk : k ≠ 0) : mag (ofU64 k) ≠ 0 := by
  have hpos : 0 < k.toNat := Nat.pos_of_ne_zero fun h => hk (BitVec.eq_of_toNat_eq h)
  have hpattern : 1 ≤ roundPattern (k.toNat * 2 ^ 1074) 1 := by
    refine (roundPattern_isNearest _ Nat.one_pos).ge ?_
    rw [patternMag_one, Nat.cast_one, div_one, Nat.one_le_cast]
    exact Nat.mul_pos hpos (pow_pos Nat.two_pos _)
  rw [mag_eq, ofU64, pattern_pack false (roundMag_lt ..), roundMag_ofU64]
  exact (patternMag_strictMono hpattern).ne'

theorem mag_ofU64_one : mag (ofU64 1) = 2 ^ 1074 := by decide +kernel

theorem div_ofU64_one {x : Number} (hx : isFinite x = true) : div x (ofU64 1) = x := by
  rw [div_of_isFinite hx (isFinite_ofU64 1) (mag_ofU64_ne_zero (by decide)), mag_ofU64_one,
    roundMag_mag_mul hx (pow_pos Nat.two_pos _), neg_ofU64, Bool.bne_false]
  exact pack_neg_pattern x

end Sys2Proof.Machine.Binary64

namespace Sys2Proof.Machine

/-- The first sample is the mean, with no spread (R132). -/
theorem foldSample_emptyAcc (c : DWord) :
    foldSample binary64Ops (emptyAcc binary64Ops) c = { n := 1, mean := Binary64.ofU64 c, m2 := 0 } := by
  have hfinite := Binary64.isFinite_ofU64 c
  have hneg := Binary64.neg_ofU64 c
  have hn : (0 : DWord) + 1 = 1 := rfl
  simp only [foldSample, emptyAcc, binary64Ops, hn, Binary64.sub_zero_eq hfinite,
    Binary64.div_ofU64_one hfinite, Binary64.zero_add_eq hfinite hneg, Binary64.sub_self_eq hfinite,
    Binary64.mul_zero_eq hfinite hneg, Binary64.add_zero_eq Binary64.isFinite_zero Binary64.zero_neg]
  rfl

/-- A sample equal to the mean keeps the mean and the spread 0 (R132). -/
theorem foldSample_of_mean_eq (c : DWord) {n : DWord} (hn : n + 1 ≠ 0) :
    foldSample binary64Ops { n := n, mean := Binary64.ofU64 c, m2 := Binary64.zero } c =
      { n := n + 1, mean := Binary64.ofU64 c, m2 := Binary64.zero } := by
  have hfinite := Binary64.isFinite_ofU64 c
  have hneg := Binary64.neg_ofU64 c
  simp only [foldSample, binary64Ops, Binary64.sub_self_eq hfinite,
    Binary64.zero_div_eq (Binary64.isFinite_ofU64 (n + 1)) (Binary64.neg_ofU64 _) (Binary64.mag_ofU64_ne_zero hn),
    Binary64.add_zero_eq hfinite hneg, Binary64.mul_zero_eq Binary64.isFinite_zero Binary64.zero_neg,
    Binary64.add_zero_eq Binary64.isFinite_zero Binary64.zero_neg]

/-- Settles O26, by induction on the number of samples from the first one. -/
theorem equalSamplesHaveNoSpread : Obligations.EqualSamplesHaveNoSpread := by
  unfold Obligations.EqualSamplesHaveNoSpread
  intro c k hk hbound
  induction k, hk using Nat.le_induction with
  | base => exact foldSample_emptyAcc c
  | succ k hk ih =>
    have hn : BitVec.ofNat 64 k + 1 = BitVec.ofNat 64 (k + 1) := (BitVec.ofNat_add ..).symm
    have hne : BitVec.ofNat 64 k + 1 ≠ 0 := by
      rw [hn]
      intro h
      have htoNat := congrArg BitVec.toNat h
      rw [BitVec.toNat_ofNat, Nat.mod_eq_of_lt hbound] at htoNat
      exact Nat.succ_ne_zero k htoNat
    rw [List.replicate_succ', foldSamples_concat, ih (by omega), ← hn]
    exact foldSample_of_mean_eq c hne

end Sys2Proof.Machine

/-! INIT_DEFAULT (R137): what it sets is constant, so a second one finds it set. -/

namespace Sys2Proof.Machine

@[simp] theorem initBlock_initBlock (s : State) : initBlock (initBlock s) = initBlock s := rfl

/-- The elements of R10 and the response are apart. -/
@[simp] theorem initBlock_respond (s : State) (r : Response) :
    initBlock (s.respond r) = (initBlock s).respond r := rfl

@[simp] theorem State.respond_respond (s : State) (r r' : Response) :
    (s.respond r).respond r' = s.respond r' := rfl

theorem exec_initDefault (s : State) : exec .initDefault s = .next ((initBlock s).respond .nothing) :=
  exec_eq .initDefault s

/-- INIT_DEFAULT at a state it has left (R137). -/
theorem exec_initDefault_again (s : State) :
    exec .initDefault ((initBlock s).respond .nothing) = .next ((initBlock s).respond .nothing) := by
  rw [exec_initDefault, initBlock_respond, initBlock_initBlock, State.respond_respond]

/-- Settles O46: the state left is the block reset, with nothing answered, and its elements are the zeros
of `Timer.reset`, `Pic.reset` and `Metrics.reset`. -/
theorem initDefaultZeroesEveryElement : Obligations.InitDefaultZeroesEveryElement := by
  unfold Obligations.InitDefaultZeroesEveryElement
  intro s
  exact ⟨(initBlock s).respond .nothing, exec_initDefault s, exec_initDefault_again s, rfl⟩

end Sys2Proof.Machine

/-! A second acknowledgment (R155), and that every operation completes (R145). -/

namespace Sys2Proof.Machine

@[simp] theorem clearPending_clearPending (bits : Word) (v : VectorIx) :
    clearPending (clearPending bits v) v = clearPending bits v := by
  rw [clearPending, clearPending, BitVec.and_assoc, BitVec.and_self]

/-- Dropping a request leaves a PIC whose request is dropped already. -/
theorem dropRequest_of_clearPending_eq {p : Pic} {v : VectorIx}
    (hclear : clearPending p.pendingBits v = p.pendingBits) : dropRequest p v = p := by
  rw [dropRequest, hclear]

/-- A second acknowledgment finds neither a firing cycle to fold nor a request to drop (R109, R110). -/
@[simp] theorem acknowledgeVector_acknowledgeVector (v : VectorIx) (s : State) :
    acknowledgeVector v (acknowledgeVector v s) = acknowledgeVector v s := by
  have hlec := acknowledgeVector_lec_self v s
  have hclear : clearPending (acknowledgeVector v s).pic.pendingBits v =
      (acknowledgeVector v s).pic.pendingBits := by
    rw [acknowledgeVector_pendingBits, clearPending_clearPending]
  rw [acknowledgeVector_of_lec_eq_zero hlec, dropRequest_of_clearPending_eq hclear]
  rfl

/-- ACK_IRQ repeated at once, with a vector in range or not (R111, R155). -/
theorem exec_ackIrq_again (vec : Word) (s : State) :
    ∃ t, exec (.ackIrq vec) s = .next t ∧ exec (.ackIrq vec) t = .next t := by
  cases hrange : vectorInRange (signedVector vec) with
  | none =>
    refine ⟨_, exec_ackIrq_of_none hrange s, ?_⟩
    rw [exec_ackIrq_of_none hrange, State.respond_respond]
  | some v =>
    obtain rfl := (vectorInRange_signedVector vec v).mp hrange
    refine ⟨_, exec_ackIrq v s, ?_⟩
    rw [exec_ackIrq, acknowledgeVector_respond, acknowledgeVector_acknowledgeVector, State.respond_respond]

/-- Settles O17: without a firing cycle an acknowledgment touches the PIC alone, and an acknowledgment leaves
its vector without a firing cycle and without a request. -/
theorem secondAcknowledgmentChangesNothing : Obligations.SecondAcknowledgmentChangesNothing := by
  unfold Obligations.SecondAcknowledgmentChangesNothing
  refine ⟨fun s v hlec => ⟨_, exec_ackIrq v s, ?_⟩, fun s vec => exec_ackIrq_again vec s⟩
  rw [State.respond_metrics, acknowledgeVector_of_lec_eq_zero hlec]
  rfl

/-- No operation faults or is refused (R145). -/
theorem exec_completes (i : Instr) (s : State) : Completes (exec i s) := ⟨_, exec_eq i s⟩

/-- A step performs an operation or the hardware reset, or nothing, and each completes (R5, R145, R170). -/
theorem step_completes (s : State) : Completes (step s) := by
  cases hinputs : s.inputs with
  | nil => exact ⟨s, by rw [step, nextInput_nil hinputs]⟩
  | cons input rest =>
    cases input with
    | command c =>
      rw [step_command hinputs]
      exact exec_completes _ _
    | hardwareReset => exact ⟨hardwareReset (s.setInputs rest), by rw [step, nextInput_cons hinputs]⟩

/-- Settles O10: a step completes because the operation it performs does. -/
theorem everyStepCompletes : Obligations.EveryStepCompletes := ⟨step_completes, exec_completes⟩

end Sys2Proof.Machine

/-! The hardware reset input (R170): a second way into the state that INIT_DEFAULT leaves. -/

namespace Sys2Proof.Machine

/-- The reset state, with the parameters and the presentations the block had (R19, R39, R137). -/
theorem initBlock_respond_nothing (s : State) :
    (initBlock s).respond .nothing = { State.reset with config := s.config, inputs := s.inputs } := rfl

/-- The step with the hardware reset presented first (R53, R170). -/
theorem step_hardwareReset {s : State} {rest : List Input} (h : s.inputs = .hardwareReset :: rest) :
    step s = .next ((initBlock (s.setInputs rest)).respond .nothing) := by
  simp only [step, nextInput_cons h, hardwareReset]

/-- Settles O8: the reset input and INIT_DEFAULT set the same elements to the same values, and taking the
presentation leaves the parameters. -/
theorem hardwareResetIsInitDefault : Obligations.HardwareResetIsInitDefault := by
  unfold Obligations.HardwareResetIsInitDefault
  intro s rest hinputs
  rw [step_hardwareReset hinputs]
  refine ⟨(exec_initDefault _).symm, ?_⟩
  rw [initBlock_respond_nothing, State.setInputs_config, State.setInputs_inputs]

end Sys2Proof.Machine

/-! When a result of binary64 is finite (R127): exactly when it is rounded to a pattern before the infinity's. -/

namespace Sys2Proof.Machine.Binary64

/-- The midpoint after an odd pattern is rounded to the even one above it, so a nearest pattern is no later
exactly below the midpoint. -/
theorem IsNearestPattern.le_iff {q : ℚ} {p c : Nat} (h : IsNearestPattern q p) (hodd : c % 2 = 1) :
    p ≤ c ↔ 2 * q < patternMag c + patternMag (c + 1) := by
  have hstep := patternMag_cast_lt (Nat.lt_succ_self c)
  constructor
  · intro hle
    by_contra! hmid
    have hmag := patternMag_cast_le hle
    obtain ⟨hnear, htie⟩ := h (c + 1)
    have hbelow : |(patternMag p : ℚ) - q| = q - patternMag p := by
      rw [abs_sub_comm, abs_of_nonneg (by linarith)]
    have habove : |(patternMag (c + 1) : ℚ) - q| ≤ q - patternMag c := abs_le.mpr ⟨by linarith, by linarith⟩
    rw [hbelow] at hnear htie
    rcases hle.lt_or_eq with hlt | rfl
    · have hmag_lt := patternMag_cast_lt hlt
      linarith
    · have heven := htie (by linarith) (Nat.succ_ne_self p)
      omega
  · intro hmid
    by_contra! hlt
    have hmag := patternMag_cast_le (Nat.succ_le_of_lt hlt)
    have hdist := (le_abs_self _).trans (h c).1
    rcases le_abs.mp hdist with hc | hc <;> linarith

/-- The pattern of the greatest finite magnitude. -/
def greatestPattern : Nat := 2045 * 2 ^ 52 + (2 ^ 53 - 1)

/-- In units, the overflow threshold is the midpoint after the greatest finite magnitude. -/
theorem patternMag_greatest_add_succ :
    (patternMag greatestPattern + patternMag (greatestPattern + 1) : ℚ) = 2 * (overflowThreshold * 2 ^ 1074) := by
  have hgreatest : (patternMag greatestPattern : ℚ) = (2 ^ 53 - 1) * 2 ^ 2045 := by
    rw [greatestPattern, patternMag_significand (by decide) (by decide), Nat.cast_mul, Nat.cast_pow]
    norm_num
  have hinfinity : (patternMag (greatestPattern + 1) : ℚ) = 2 ^ 53 * 2 ^ 2045 := by
    rw [greatestPattern, Nat.add_assoc, Nat.sub_add_cancel (by decide), patternMag_significand le_rfl (by decide),
      Nat.cast_mul, Nat.cast_pow, Nat.cast_pow, Nat.cast_ofNat]
  have hthreshold : overflowThreshold * 2 ^ 1074 = (2 ^ 54 - 1) * 2 ^ 2044 := by
    rw [overflowThreshold, show 1024 = 54 + 970 from rfl, show 2044 = 970 + 1074 from rfl, pow_add, pow_add,
      ← sub_one_mul, mul_assoc]
  rw [hgreatest, hinfinity, hthreshold, show (2 : ℚ) ^ 2045 = 2 ^ 2044 * 2 from pow_succ 2 2044]
  generalize (2 : ℚ) ^ 2044 = unit
  ring

/-- A packed rounded quotient is finite exactly below the threshold. -/
theorem isFinite_pack_roundMag (sign : Bool) (num : Nat) {den : Nat} (hden : 0 < den) :
    isFinite (pack sign (roundMag num den)) = true ↔ (num / den / 2 ^ 1074 : ℚ) < overflowThreshold := by
  have hfinite : roundMag num den < 2047 * 2 ^ 52 ↔ roundPattern num den ≤ greatestPattern := by
    rw [roundMag_eq, greatestPattern]
    omega
  rw [isFinite_pack sign (roundMag_lt num den), hfinite, (roundPattern_isNearest num hden).le_iff (by decide),
    patternMag_greatest_add_succ, mul_lt_mul_iff_right₀ two_pos,
    ← div_lt_iff₀ (by positivity)]

theorem abs_signed (sign : Bool) {q : ℚ} (hq : 0 ≤ q) : |signed sign q| = q := by
  cases sign
  · exact abs_of_nonneg hq
  · exact (abs_neg q).trans (abs_of_nonneg hq)

theorem abs_toRat (x : Number) : |toRat x| = mag x / 2 ^ 1074 := by
  rw [toRat_eq_signed_mag, abs_signed _ (by positivity)]

theorem isFinite_add_iff {a b : Number} (ha : isFinite a = true) (hb : isFinite b = true) :
    isFinite (add a b) = true ↔ |toRat a + toRat b| < overflowThreshold := by
  obtain ⟨sign, num, hadd, hsum⟩ := exists_add_eq_pack ha hb
  rw [hadd, hsum, abs_signed sign (by positivity)]
  exact isFinite_pack_roundMag sign num Nat.one_pos

theorem isFinite_sub_iff {a b : Number} (ha : isFinite a = true) (hb : isFinite b = true) :
    isFinite (sub a b) = true ↔ |toRat a - toRat b| < overflowThreshold := by
  rw [sub_of_isFinite ha hb, sub_eq_add_neg, ← toRat_negate]
  exact isFinite_add_iff ha ((isFinite_negate b).trans hb)

theorem isFinite_mul_iff {a b : Number} (ha : isFinite a = true) (hb : isFinite b = true) :
    isFinite (mul a b) = true ↔ |toRat a * toRat b| < overflowThreshold := by
  have hproduct : |toRat a * toRat b| = (mag a * mag b : ℕ) / (2 ^ 1074 : ℕ) / 2 ^ 1074 := by
    rw [abs_mul, abs_toRat, abs_toRat, div_mul_div_comm, div_div, Nat.cast_mul, Nat.cast_pow, Nat.cast_ofNat]
  rw [mul_of_isFinite ha hb, hproduct]
  exact isFinite_pack_roundMag _ _ (pow_pos Nat.two_pos _)

theorem isFinite_div_iff {a b : Number} (ha : isFinite a = true) (hb : isFinite b = true)
    (hdivisor : toRat b ≠ 0) : isFinite (div a b) = true ↔ |toRat a / toRat b| < overflowThreshold := by
  have hmag : mag b ≠ 0 := fun h => hdivisor (toRat_of_mag_eq_zero h)
  have hunit : (2 ^ 1074 : ℚ) ≠ 0 := by positivity
  have hquotient : |toRat a / toRat b| = (mag a * 2 ^ 1074 : ℕ) / (mag b : ℕ) / 2 ^ 1074 := by
    rw [abs_div, abs_toRat, abs_toRat, div_div_div_cancel_right₀ hunit, Nat.cast_mul, Nat.cast_pow,
      Nat.cast_ofNat, div_right_comm, mul_div_cancel_right₀ _ hunit]
  rw [div_of_isFinite ha hb hmag, hquotient]
  exact isFinite_pack_roundMag _ _ (Nat.pos_of_ne_zero hmag)

/-- Settles O58: the threshold is the midpoint after the greatest finite magnitude, whose pattern is odd, so the
tie there is rounded up to the infinity. -/
theorem finiteExactlyBelowTheOverflowThreshold : Obligations.FiniteExactlyBelowTheOverflowThreshold := by
  unfold Obligations.FiniteExactlyBelowTheOverflowThreshold
  exact fun a b ha hb => ⟨isFinite_add_iff ha hb, isFinite_sub_iff ha hb, isFinite_mul_iff ha hb,
    isFinite_div_iff ha hb⟩

end Sys2Proof.Machine.Binary64

/-! The conversion of an integer of at most 53 bits (R127): its value is a pattern's magnitude, and rounding
keeps it. -/

namespace Sys2Proof.Machine.Binary64

/-- Doubled until it is normal or its scale is used up, a significand is that of a pattern. -/
theorem exists_patternMag_eq {m : Nat} (hm : m ≤ 2 ^ 53) (e : Nat) : ∃ p, patternMag p = m * 2 ^ e := by
  induction e generalizing m with
  | zero => exact ⟨0 * 2 ^ 52 + m, patternMag_significand hm (.inl rfl)⟩
  | succ e ih =>
    rcases Nat.lt_or_ge m (2 ^ 52) with hsubnormal | hnormal
    · obtain ⟨p, hp⟩ := ih (m := 2 * m) (by omega)
      exact ⟨p, by rw [hp, pow_succ']; ring⟩
    · exact ⟨(e + 1) * 2 ^ 52 + m, patternMag_significand hm (.inr hnormal)⟩

/-- A quantity that some pattern has exactly is the magnitude of its nearest pattern. -/
theorem IsNearestPattern.patternMag_eq {q : ℚ} {p c : Nat} (h : IsNearestPattern q p) (hc : patternMag c = q) :
    patternMag p = q := by
  have hdist := (h c).1
  rw [hc, sub_self, abs_zero] at hdist
  exact sub_eq_zero.mp (abs_nonpos_iff.mp hdist)

theorem toRat_ofU64 {k : DWord} (hk : k.toNat ≤ 2 ^ 53) : toRat (ofU64 k) = (k.toNat : ℚ) := by
  obtain ⟨p, hp⟩ := exists_patternMag_eq hk 1074
  have hround := (roundPattern_isNearest (k.toNat * 2 ^ 1074) Nat.one_pos).patternMag_eq (c := p)
    (by rw [hp, Nat.cast_one, div_one])
  rw [ofU64, toRat_pack false (roundMag_lt ..), roundMag_ofU64, hround, signed, if_neg Bool.false_ne_true,
    Nat.cast_one, div_one, Nat.cast_mul, Nat.cast_pow, Nat.cast_ofNat, mul_div_cancel_right₀ _ (by positivity)]

/-- Settles O24: the conversion never overflows, and at most 53 bits are rounded to themselves. -/
theorem conversionIsExactUpTo53Bits : Obligations.ConversionIsExactUpTo53Bits :=
  fun k hk => ⟨isFinite_ofU64 k, toRat_ofU64 hk⟩

end Sys2Proof.Machine.Binary64

/-! A step with nothing presented (log 2). -/

namespace Sys2Proof.Machine

theorem step_nil {s : State} (h : s.inputs = []) : step s = .next s := by
  rw [step, nextInput_nil h]

/-- Settles O9: without a presentation to take, the step has nothing to perform. -/
theorem nothingPresentedNothingDone : Obligations.NothingPresentedNothingDone := fun _ => step_nil

end Sys2Proof.Machine
